-- ==== Sys2Proof/Word.lean ====
section
/-! DEFINITION. The bit vectors the spec names (00_scope.md R7, R8, R9) and the direction of a read (R54).
Every value of the block is an unsigned bit vector of a fixed width (R9); nothing is signed. -/

namespace Sys2Proof

/-- One byte of a key written as a byte sequence (20_memory.md R28). -/
abbrev Byte := BitVec 8

/-- A DES key: KEY_BITS = 64 (R7). -/
abbrev Key := BitVec 64

/-- The PC1 output and the value PC2 selects from: CD_BITS = 56 (R7). -/
abbrev CD := BitVec 56

/-- One half, C or D: HALF_BITS = 28 (R7). -/
abbrev Half := BitVec 28

/-- One subkey: SUBKEY_BITS = 48 (R7). -/
abbrev Subkey := BitVec 48

/-- A request word REQ[79:0]: REQ_BITS = 80 (R8, R37). -/
abbrev Request := BitVec 80

/-- A response word RSP[51:0]: RSP_BITS = 52 (R8, R38). -/
abbrev Response := BitVec 52

/-- A one-bit flag: VALID (R16). -/
abbrev Flag := BitVec 1

/-- The direction of a READ_SUBKEY (R37, R54): forward for encryption, reverse for decryption. -/
inductive Direction where
  | forward
  | reverse
deriving DecidableEq, Repr

end Sys2Proof
end

