-- ==== Sys2Proof/Config.lean ====
section
/-! DEFINITION. What is fixed for the block and is a number, not a width (the widths are in Word.lean).
The spec leaves no value open: no result is undefined, so there is no free value here. Its OPEN parameters are
LATENCY and PLACEMENT, on which no rule depends (R32, R84), and STORE_SCHEDULE, which no command can observe
(R17; Machine/Recompute.lean writes the other design out). None of the three is a parameter of this model. -/

namespace Sys2Proof.Config

/-- KEY_BYTES (R7): the one key length LOAD_KEY accepts (R61). -/
def keyBytes : Nat := 8

/-- The largest value of the 4-bit field KLEN (R37, R40, R44). -/
def maxKlen : Nat := 15

/-- The largest round index: RND_BITS = 4 (R8, R40, R44). -/
def maxRound : Nat := 15

end Sys2Proof.Config
end

