-- ==== Sys2Proof/Syntax.lean ====
section
/-! DEFINITION. The three commands of DKS-CMD version 1 (30_encoding.md R39, opcode_table.json), one
constructor per row. ILLEGAL (R63) is no command: it is what the step does with a word that is none of these. -/

namespace Sys2Proof

/-- A command with its operands (R40): KLEN and RND are read as unsigned numbers, KEYDATA is taken whole. -/
inductive Instr where
  /-- STATUS (R60): no operands. -/
  | status
  /-- LOAD_KEY (R61): the key length in bytes the host claims, and the key. -/
  | loadKey (klen : Nat) (key : Key)
  /-- READ_SUBKEY (R62): the direction and the round. -/
  | readSubkey (dir : Direction) (rnd : Nat)
deriving DecidableEq, Repr

end Sys2Proof
end

