-- ==== Sys2Proof/WellFormed.lean ====
section
/-! DEFINITION. Which commands a request word can carry (R37, R40): KLEN and RND are 4-bit fields, so both
numbers are at most 15. An operand outside its range "produces no word" (R44). -/

namespace Sys2Proof

/-- The operands fit the fields that carry them. -/
def Instr.wellFormed : Instr → Bool
  | .status => true
  | .loadKey klen _ => decide (klen ≤ Config.maxKlen)
  | .readSubkey _ rnd => decide (rnd ≤ Config.maxRound)

end Sys2Proof
end

