-- ==== Sys2Proof/Decode.lean ====
section
/-! DEFINITION. The request word: its fields (R37), its decoder (R39 to R42, R59), its encoder (R37, R39), and
the match/mask form of the opcode map (R39, opcode_table.json). -/

namespace Sys2Proof

/-! ### The fields of a request word (R37) -/

/-- OPC = REQ[79:76]. -/
def Request.opc (r : Request) : BitVec 4 := r.extractLsb' 76 4

/-- KLEN = REQ[75:72]. -/
def Request.klen (r : Request) : BitVec 4 := r.extractLsb' 72 4

/-- RES = REQ[71:69]. -/
def Request.res (r : Request) : BitVec 3 := r.extractLsb' 69 3

/-- DIR = REQ[68]. -/
def Request.dir (r : Request) : BitVec 1 := r.extractLsb' 68 1

/-- RND = REQ[67:64]. -/
def Request.rnd (r : Request) : BitVec 4 := r.extractLsb' 64 4

/-- KEYDATA = REQ[63:0]. -/
def Request.keydata (r : Request) : Key := r.extractLsb' 0 64

/-- DIR = 0 is forward (encryption), DIR = 1 is reverse (decryption) (R37). -/
def Direction.ofBit (b : BitVec 1) : Direction := if b = 0#1 then .forward else .reverse

/-- The DIR bit of a direction (R37). -/
def Direction.toBit : Direction → BitVec 1
  | .forward => 0#1
  | .reverse => 1#1

/-! ### The decoder -/

/-- Why a request is none of the three commands (R41). -/
inductive Reject where
  /-- R41 (a): OPC is 0x3 to 0xF. -/
  | reservedOpcode
  /-- R41 (b): OPC is 0x0 to 0x2 and a field that must be 0 is not 0. -/
  | mustBeZero
deriving DecidableEq, Repr

/-- What a decoder answers: a command, or the reason the word is refused. -/
inductive Decoded where
  | command (i : Instr)
  | rejected (why : Reject)
deriving DecidableEq, Repr

/-- The decoder of R59, total on the 2^80 request words: it reads OPC and then checks the must-be-zero
fields of R39 (R42). -/
def decode (r : Request) : Decoded :=
  if r.opc = 0x0#4 then
    if r.extractLsb' 0 76 = 0#76 then .command .status else .rejected .mustBeZero
  else if r.opc = 0x1#4 then
    if r.extractLsb' 64 8 = 0#8 then .command (.loadKey r.klen.toNat r.keydata) else .rejected .mustBeZero
  else if r.opc = 0x2#4 then
    if r.extractLsb' 69 7 = 0#7 ∧ r.extractLsb' 0 64 = 0#64 then
      .command (.readSubkey (Direction.ofBit r.dir) r.rnd.toNat)
    else .rejected .mustBeZero
  else .rejected .reservedOpcode

/-- The command of a decoded word, if it is one. -/
def Decoded.asCommand : Decoded → Option Instr
  | .command i => some i
  | .rejected _ => none

/-- The command read from a word given as a number whose bit 0 is REQ[0]. The table gives every row all 80
bits; bits from `nbits` up to 80 are 0, and no request is longer than 80 bits (R42). -/
def decodeTableWord (nbits w : Nat) : Option Instr :=
  if nbits ≤ 80 then (decode (BitVec.ofNat 80 (w % 2 ^ nbits))).asCommand else none

/-! ### The encoder -/

/-- The six fields of R37, most significant first. -/
def packRequest (opc klen : BitVec 4) (res : BitVec 3) (dir : BitVec 1) (rnd : BitVec 4) (keydata : Key) :
    Request :=
  opc ++ klen ++ res ++ dir ++ rnd ++ keydata

/-- The request word of a well-formed command (R39): the fields it does not use are 0. -/
def encode : Instr → Request
  | .status => packRequest 0x0#4 0#4 0#3 0#1 0#4 0#64
  | .loadKey klen key => packRequest 0x1#4 (BitVec.ofNat 4 klen) 0#3 0#1 0#4 key
  | .readSubkey dir rnd => packRequest 0x2#4 0#4 0#3 dir.toBit (BitVec.ofNat 4 rnd) 0#64

/-! ### The match/mask form of the opcode map -/

/-- One row of opcode_table.json: a word is of the row when its masked bits equal the row's. -/
structure OpcodeRow where
  bits : Request
  mask : Request
deriving DecidableEq, Repr

/-- The row of a command (R39, opcode_table.json). -/
def Instr.row : Instr → OpcodeRow
  | .status => ⟨0x00000000000000000000#80, 0xFFFFFFFFFFFFFFFFFFFF#80⟩
  | .loadKey _ _ => ⟨0x10000000000000000000#80, 0xF0FF0000000000000000#80⟩
  | .readSubkey _ _ => ⟨0x20000000000000000000#80, 0xFFE0FFFFFFFFFFFFFFFF#80⟩

/-- The word has the row's bits under the row's mask (R39). -/
def OpcodeRow.matchesWord (row : OpcodeRow) (r : Request) : Prop := r &&& row.mask = row.bits

end Sys2Proof
end

