-- ==== Sys2Proof/Machine/Flags.lean ====
section
/-! DEFINITION. The status codes (60_exceptions.md R65), the response word (30_encoding.md R38) and what STATUS
reports of the block's one flag, VALID (10_state.md R16, R22). -/

namespace Sys2Proof.Machine

/-- The status codes the block produces (R65). -/
inductive Status where
  /-- The command completed. -/
  | ok
  /-- LOAD_KEY with klen other than 8 (R66). -/
  | errKeyLength
  /-- READ_SUBKEY while VALID = 0 (R67). -/
  | errNotKeyed
  /-- A reserved opcode, or a must-be-zero field set (R68). -/
  | errIllegalCommand
deriving DecidableEq, Repr

/-- The 4-bit code of a status (R65). -/
def Status.code : Status → BitVec 4
  | .ok => 0x0#4
  | .errKeyLength => 0x1#4
  | .errNotKeyed => 0x2#4
  | .errIllegalCommand => 0x3#4

/-- The response word: STATUS in bits 51:48, RDATA in bits 47:0 (R38). -/
def packResponse (st : Status) (data : BitVec 48) : Response := st.code ++ data

/-- The STATUS field of a response, RSP[51:48] (R38). -/
def responseStatus (r : Response) : BitVec 4 := r.extractLsb' 48 4

/-- The RDATA field of a response, RSP[47:0] (R38). -/
def responseData (r : Response) : BitVec 48 := r.extractLsb' 0 48

/-- `zext_48(VALID)`, the RDATA of STATUS (R60). -/
def validData (valid : Flag) : BitVec 48 := valid.setWidth 48

end Sys2Proof.Machine
end

