-- ==== Sys2Proof/Machine/KeySchedule.lean ====
section
/-! DEFINITION. The key-schedule function KS (40_key_schedule_function.md R46 to R53) over DES bit numbering
(00_scope.md R10). The three tables are those the spec gives (R47, R49, R52). -/

namespace Sys2Proof.Machine

/-! ### DES numbering and selection (R10, R11) -/

/-- `v<n> = v[w-n]`: bit n of a w-bit value, numbered from 1 at the most significant end (R10). -/
def desBit {w : Nat} (v : BitVec w) (n : Nat) : Bool := v.getLsbD (w - n)

/-- `select(v, w, T)`: the value whose DES bit j is `v<T[j]>` (R10). -/
def select {w : Nat} (v : BitVec w) : (table : List Nat) → BitVec table.length
  | [] => 0#0
  | n :: rest => BitVec.cons (desBit v n) (select v rest)

/-- `rotl_28(x, n)`, for n at most 28 (R11). -/
def rotl28 (x : Half) (n : Nat) : Half := (x <<< n) ||| (x >>> (28 - n))

/-! ### The tables -/

/-- PC1, the 56 key bits kept (R47). -/
def pc1 : List Nat :=
  [57, 49, 41, 33, 25, 17, 9,
   1, 58, 50, 42, 34, 26, 18,
   10, 2, 59, 51, 43, 35, 27,
   19, 11, 3, 60, 52, 44, 36,
   63, 55, 47, 39, 31, 23, 15,
   7, 62, 54, 46, 38, 30, 22,
   14, 6, 61, 53, 45, 37, 29,
   21, 13, 5, 28, 20, 12, 4]

/-- SHIFT[0..15], the left rotation of each round (R49). -/
def shiftTable : List Nat := [1, 1, 2, 2, 2, 2, 2, 2, 1, 2, 2, 2, 2, 2, 2, 1]

/-- PC2, the 48 bits of `C ++ D` kept (R52). -/
def pc2 : List Nat :=
  [14, 17, 11, 24, 1, 5,
   3, 28, 15, 6, 21, 10,
   23, 19, 12, 4, 26, 8,
   16, 7, 27, 20, 13, 2,
   41, 52, 31, 37, 47, 55,
   30, 40, 51, 45, 33, 48,
   44, 49, 39, 56, 34, 53,
   46, 42, 50, 36, 29, 32]

/-- `SHIFT[i]` (R49). -/
def shift (i : Nat) : Nat := shiftTable.getD i 0

/-- `CUM[i] = SHIFT[0] + ... + SHIFT[i]` (R50). -/
def cum (i : Nat) : Nat := (shiftTable.take (i + 1)).sum

/-! ### The four stages -/

/-- `CD_0 = select(key, 64, PC1)` (R47). -/
def pc1Select (key : Key) : CD := select key pc1

/-- `C_0 = CD_0[55:28]`, the more significant half (R48). -/
def halfC (key : Key) : Half := (pc1Select key).extractLsb' 28 28

/-- `D_0 = CD_0[27:0]` (R48). -/
def halfD (key : Key) : Half := (pc1Select key).extractLsb' 0 28

/-- `C_{i+1} ++ D_{i+1}`, the rotated halves of round i (R51). -/
def rotatedCD (key : Key) (i : Nat) : CD := rotl28 (halfC key) (cum i) ++ rotl28 (halfD key) (cum i)

/-- `select(C ++ D, 56, PC2)` (R52). -/
def pc2Select (cd : CD) : Subkey := select cd pc2

/-- `KS(key, i)`, the subkey of round i (R53). -/
def ks (key : Key) (i : Fin 16) : Subkey := pc2Select (rotatedCD key i)

/-- The schedule `[KS(key, 0), ..., KS(key, 15)]` (R53). -/
def schedule (key : Key) : Vector Subkey 16 := Vector.ofFn (ks key)

/-! ### The other way to rotate, and the map of copied bits -/

/-- A half after n rounds of step-by-step rotation: `C_{i+1} = rotl_28(C_i, SHIFT[i])` (R51). -/
def steppedHalf (x : Half) : Nat → Half
  | 0 => x
  | i + 1 => rotl28 (steppedHalf x i) (shift i)

/-- `SRC[i][j]` computed from the tables: the key DES bit that DES bit j of subkey i copies (R56). PC2 names a
position of `C ++ D`; within its half the rotation moved it from `CUM[i]` places further on; PC1 names the key
bit that stood there. -/
def sourceBit (i j : Nat) : Nat :=
  let position := pc2.getD (j - 1) 0
  let half := (position - 1) / 28
  pc1.getD (28 * half + ((position - 1) % 28 + cum i) % 28) 0

end Sys2Proof.Machine
end

