-- ==== Sys2Proof/Machine/Operands.lean ====
section
/-! DEFINITION. How operands are read: the direction mapping of a round (R54), the byte order of a key (R28),
and the 6-bit groups of a subkey (R29). -/

namespace Sys2Proof.Machine

/-- `idx(dir, r)`: forward order reads entry r, reverse order reads entry 15 - r (R54). -/
def idx : Direction → Fin 16 → Fin 16
  | .forward, r => r
  | .reverse, r => ⟨15 - r.val, by omega⟩

/-- KEYDATA of a key written as eight bytes `k_0 ... k_7`: byte 0 is the most significant (R28). -/
def keyOfBytes (k : Vector Byte 8) : Key := k[0] ++ k[1] ++ k[2] ++ k[3] ++ k[4] ++ k[5] ++ k[6] ++ k[7]

/-- Byte j of a key: `k_j = KEYDATA[63-8j : 56-8j]` (R28). -/
def keyByte (key : Key) (j : Fin 8) : Byte := key.extractLsb' (56 - 8 * j.val) 8

/-- Group g (1 to 8) of a subkey holds its DES bits 6g-5 to 6g (R29). -/
def subkeyGroup (v : Subkey) (g : Nat) : BitVec 6 := v.extractLsb' (48 - 6 * g) 6

end Sys2Proof.Machine
end

