-- ==== Sys2Proof/Machine/State.lean ====
section
/-! DEFINITION. The state of the block (10_state.md R14: "Nothing else is state"), the host's coming events as
the step's input (R13, R77, R85), and the reasons a step can stop. -/

namespace Sys2Proof.Machine

/-- What the host does at the port: it issues a request word, or it asserts reset between two commands
(R77, R78, R86). -/
inductive PortEvent where
  | request (word : Request)
  | reset
deriving DecidableEq, Repr

/-- The registers of R14, and the port. `none` is the spec's own value of a register that holds no value (R12). -/
structure State where
  /-- KEY (R15): the key of the last successful LOAD_KEY. -/
  key : Option Key
  /-- SK[0..15] (R17): the subkey register file. -/
  sk : Vector (Option Subkey) 16
  /-- VALID (R16): whether the block is keyed. -/
  valid : Flag
  /-- RSP (R20): the response of the last command. -/
  rsp : Option Response
  /-- DESIGN CHOICE (log 1), safe: the model's own field, not the spec's state. The events the host will still
  put on the request port, oldest first; the block takes one per step. -/
  port : List PortEvent
deriving DecidableEq, Repr

/-- Why a step stops with a fault. No run from reset reaches either. -/
inductive Fault where
  /-- Raised by READ_SUBKEY when VALID = 1 and the entry it reads holds `none` (R12, I1). Safe: the spec gives
  such a read no value, and VALID gates every path to it (R16, R18). -/
  | readOfNone
  /-- Raised by READ_SUBKEY on a round above 15, which no request word carries (R73, D20, I7). Safe: the spec
  requires the fault of a model whose rounds are natural numbers. -/
  | roundOutOfRange
deriving DecidableEq, Repr

/-- Why a step answers no state at all. -/
inductive Refusal where
  /-- Raised by an arm of exec whose command has no meaning yet; no arm is left. Safe. -/
  | notModelled (mnemonic : String)
  /-- Raised by step when the port is empty: "the block never steps without a request" (R13, R59). Safe (log 2):
  there is no step of the block to model. -/
  | noRequest
deriving DecidableEq, Repr

/-- The block right after reset (R77), with nothing on the port. -/
def State.reset : State where
  key := none
  sk := Vector.replicate 16 none
  valid := 0#1
  rsp := none
  port := []

end Sys2Proof.Machine
end

