-- ==== Sys2Proof/Machine/Ops.lean ====
section
/-! DEFINITION. The named operations on the registers. `raise` is the one shared way an error is taken: the
block has no traps, so an error is its response and the state effect of the rule that raises it (R12, R69, R72). -/

namespace Sys2Proof.Machine

/-- `respond(status, data)`: present a response and end the command (R12, R20, R59). -/
def respond (st : Status) (data : BitVec 48) (s : State) : State := { s with rsp := some (packResponse st data) }

/-- `raise <STATUS>`: `respond(<STATUS>, 0)` (R12). The state effect of R69 is made before it. -/
def raise (st : Status) (s : State) : State := respond st 0#48 s

/-- KEY, the whole of SK and VALID become those of an accepted key (R61). -/
def loadSchedule (key : Key) (s : State) : State :=
  { s with key := some key, sk := (schedule key).map some, valid := 1#1 }

/-- KEY and SK become `none` and VALID becomes 0 (R61, R69). -/
def invalidate (s : State) : State :=
  { s with key := none, sk := Vector.replicate 16 none, valid := 0#1 }

/-- One entry of the subkey register file (R25, R27). -/
def readEntry (s : State) (i : Fin 16) : Option Subkey := s.sk[i]

/-- Reset, asserted between two commands (R77, R78): every register takes its reset value, and the host's later
events still come. -/
def assertReset (s : State) : State := { State.reset with port := s.port }

end Sys2Proof.Machine
end

