-- ==== Sys2Proof/Machine/Commands.lean ====
section
/-! DEFINITION. The meanings of the three commands (41_commands.md R60 to R62) and of a word that is none of them
(R63). Every error the spec describes is a next state: the response carries it (R69, R72). -/

namespace Sys2Proof.Machine

/-- STATUS (R60): report VALID, change nothing but RSP. -/
def execStatus (s : State) : Host.Outcome State Fault Refusal :=
  .next (respond .ok (validData s.valid) s)

/-- LOAD_KEY (R61): check the key length, derive the 16 subkeys and become keyed; a wrong length leaves the block
without a key (R69, D8). -/
def execLoadKey (klen : Nat) (key : Key) (s : State) : Host.Outcome State Fault Refusal :=
  if klen = Config.keyBytes then .next (respond .ok 0#48 (loadSchedule key s))
  else .next (raise .errKeyLength (invalidate s))

/-- READ_SUBKEY (R62): return the subkey of a round in a direction. A round above 15, which no request carries, is
the fault R73 asks for. -/
def execReadSubkey (dir : Direction) (rnd : Nat) (s : State) : Host.Outcome State Fault Refusal :=
  if h : rnd < 16 then
    if s.valid = 0#1 then .next (raise .errNotKeyed s)
    else
      match readEntry s (idx dir ⟨rnd, h⟩) with
      | some subkey => .next (respond .ok subkey s)
      | none => .fault .readOfNone
  else .fault .roundOutOfRange

/-- ILLEGAL (R63): refuse a word that is no command, changing nothing but RSP (R41, R68). -/
def execIllegal (s : State) : Host.Outcome State Fault Refusal :=
  .next (raise .errIllegalCommand s)

end Sys2Proof.Machine
end

