-- ==== Sys2Proof/Machine/Dispatch.lean ====
section
/-! DEFINITION. One arm per command (R59). -/

namespace Sys2Proof.Machine

/-- The meaning of a command. -/
def exec (i : Instr) (s : State) : Host.Outcome State Fault Refusal :=
  match i with
  | .status => Sys2Proof.Machine.execStatus s
  | .loadKey klen key => Sys2Proof.Machine.execLoadKey klen key s
  | .readSubkey dir rnd => Sys2Proof.Machine.execReadSubkey dir rnd s

end Sys2Proof.Machine
end

