-- ==== Sys2Proof/Machine/Port.lean ====
section
/-! DEFINITION. What the block does with what the host puts on its one port (R33, R59, R77): serve a request word,
or take a reset. -/

namespace Sys2Proof.Machine

/-- `step(s, REQ)` of R59: decode the request and run its arm. -/
def serve (word : Request) (s : State) : Host.Outcome State Fault Refusal :=
  match decode word with
  | .command i => exec i s
  | .rejected _ => execIllegal s

/-- One event of the host: a request is served whole, a reset takes effect between commands (R78). -/
def handleEvent (e : PortEvent) (s : State) : Host.Outcome State Fault Refusal :=
  match e with
  | .request word => serve word s
  | .reset => .next (assertReset s)

/-- The oldest event on the port and the state without it: requests are served in the order the host presents
them (R33, R81). -/
def takeEvent (s : State) : Option (PortEvent × State) :=
  match s.port with
  | [] => none
  | e :: rest => some (e, { s with port := rest })

/-- The host presents a request ahead of what it had still to present. -/
def presentRequest (word : Request) (s : State) : State := { s with port := .request word :: s.port }

end Sys2Proof.Machine
end

