-- ==== Sys2Proof/Machine/Step.lean ====
section
/-! DEFINITION. One step of the machine (R13, R59): the block takes the oldest event of the host and handles it
whole. It never steps without one. -/

namespace Sys2Proof.Machine

/-- One step. An empty port is no step of the block (R59): refused by name. -/
def step (s : State) : Host.Outcome State Fault Refusal :=
  match takeEvent s with
  | some (e, rest) => handleEvent e rest
  | none => .refused .noRequest

/-- The state in which the host's next event is the request with these bits. The block fetches nothing (R21): its
next command is the next request on the port. Bits of the request above `nbits` are 0. -/
def State.withFetchWord (s : State) (nbits w : Nat) : State := presentRequest (BitVec.ofNat 80 (w % 2 ^ nbits)) s

end Sys2Proof.Machine
end

