-- ==== Sys2Proof/Machine/Assembler.lean ====
section
/-! DEFINITION. The assembler syntax of 30_encoding.md R44 and the pseudo-instructions of R45. A line is taken as its
mnemonic and operand values; operands are naturals, because an operand outside its range is an assembly error. -/

namespace Sys2Proof.Machine

/-- One line of assembler (R44, R45). -/
inductive AsmLine where
  /-- `status` -/
  | status
  /-- `load_key <klen>, <key>` -/
  | loadKey (klen key : Nat)
  /-- `read_subkey <dir>, <rnd>`, with `enc` forward and `dec` reverse -/
  | readSubkey (dir : Direction) (rnd : Nat)
  /-- `.word80 <hex>` -/
  | word80 (word : Request)
  /-- `key <key>` (pseudo) -/
  | key (key : Nat)
  /-- `rk.e <rnd>` (pseudo) -/
  | rkE (rnd : Nat)
  /-- `rk.d <rnd>` (pseudo) -/
  | rkD (rnd : Nat)
deriving DecidableEq, Repr

/-- The expansion of a pseudo-instruction (R45); every other line stands for itself. -/
def AsmLine.expand : AsmLine → AsmLine
  | .key k => .loadKey 8 k
  | .rkE rnd => .readSubkey .forward rnd
  | .rkD rnd => .readSubkey .reverse rnd
  | .status => .status
  | .loadKey klen k => .loadKey klen k
  | .readSubkey dir rnd => .readSubkey dir rnd
  | .word80 w => .word80 w

/-- The word of a line without pseudo-instructions; a klen or rnd above 15, or a key of more than 16 hex digits,
"is an assembly error and produces no word" (R44). A pseudo-instruction has no word of its own. -/
def assembleCore : AsmLine → Option Request
  | .status => some (encode .status)
  | .loadKey klen k =>
    if klen ≤ Config.maxKlen ∧ k < 2 ^ 64 then some (encode (.loadKey klen (BitVec.ofNat 64 k))) else none
  | .readSubkey dir rnd => if rnd ≤ Config.maxRound then some (encode (.readSubkey dir rnd)) else none
  | .word80 w => some w
  | .key _ => none
  | .rkE _ => none
  | .rkD _ => none

/-- The word of a line (R44, R45). -/
def assemble (line : AsmLine) : Option Request := assembleCore line.expand

end Sys2Proof.Machine
end

