-- ==== Sys2Proof/Machine/Run.lean ====
section
/-! DEFINITION. A run and what is observed of it (70_reset_and_hazards.md R85): a finite list of requests and resets,
applied one after the other, and the list of the responses. R85's run has its resets before requests only and ends at
the response to its last request; taking any list is the model's choice (DESIGN CHOICE, log 12). -/

namespace Sys2Proof.Machine

/-- The response an event leaves with the host: one for a request, none for a reset (R59, R78). -/
def responsesOf (e : PortEvent) (after : State) : List Response :=
  match e with
  | .request _ => after.rsp.toList
  | .reset => []

/-- A run under a given handling of one event: the last state and the responses in request order (R33, R85). It
stops at the first stop. DESIGN CHOICE (log 12), safe for claims about every list: R85 says nothing of a reset after the
response to the last request, of two resets in a row, of a list without a request, or of a run from another state than
the one after reset. Here any list runs from any state, and the run ends when its last event, reset or request, has
taken effect. -/
def runWith (handle : PortEvent → State → Host.Outcome State Fault Refusal) :
    List PortEvent → State → Host.Outcome (State × List Response) Fault Refusal
  | [], s => .next (s, [])
  | e :: rest, s =>
    match handle e s with
    | .next s' =>
      match runWith handle rest s' with
      | .next (t, later) => .next (t, responsesOf e s' ++ later)
      | .fault r => .fault r
      | .refused r => .refused r
    | .fault r => .fault r
    | .refused r => .refused r

/-- A run of the block (R85, and the further lists and states of log 12). -/
def run : List PortEvent → State → Host.Outcome (State × List Response) Fault Refusal := runWith handleEvent

/-- The observation of a run: the list of responses and the final VALID (R85). DESIGN CHOICE (log 12): of a list that
ends in a reset, which R85 does not have, the final VALID is the one after that reset, 0 (R77). -/
def observation : Host.Outcome (State × List Response) Fault Refusal → Option (List Response × Flag)
  | .next (t, responses) => some (responses, t.valid)
  | _ => none

end Sys2Proof.Machine
end

