-- ==== Sys2Proof/Machine/Recompute.lean ====
section
/-! DEFINITION. The other value of the parameter STORE_SCHEDULE (R8, R17, D19, I3): a block that stores no subkey and
recomputes `KS(KEY, i)` on each read. It is no part of the machine's step; a claim compares the two designs. -/

namespace Sys2Proof.Machine

/-- LOAD_KEY in the recomputing design: SK is not written. -/
def recomputeLoadKey (klen : Nat) (key : Key) (s : State) : Host.Outcome State Fault Refusal :=
  if klen = Config.keyBytes then .next (respond .ok 0#48 { s with key := some key, valid := 1#1 })
  else .next (raise .errKeyLength { s with key := none, valid := 0#1 })

/-- READ_SUBKEY in the recomputing design: `KS(KEY, idx(dir, rnd))` is computed from KEY (R17). -/
def recomputeReadSubkey (dir : Direction) (rnd : Nat) (s : State) : Host.Outcome State Fault Refusal :=
  if h : rnd < 16 then
    if s.valid = 0#1 then .next (raise .errNotKeyed s)
    else
      match s.key with
      | some key => .next (respond .ok (ks key (idx dir ⟨rnd, h⟩)) s)
      | none => .fault .readOfNone
  else .fault .roundOutOfRange

/-- A command in the recomputing design. -/
def recomputeExec (i : Instr) (s : State) : Host.Outcome State Fault Refusal :=
  match i with
  | .status => execStatus s
  | .loadKey klen key => recomputeLoadKey klen key s
  | .readSubkey dir rnd => recomputeReadSubkey dir rnd s

/-- One event of the host in the recomputing design. -/
def recomputeHandle (e : PortEvent) (s : State) : Host.Outcome State Fault Refusal :=
  match e with
  | .request word =>
    match decode word with
    | .command i => recomputeExec i s
    | .rejected _ => execIllegal s
  | .reset => .next (assertReset s)

end Sys2Proof.Machine
end

