-- ==== Sys2Proof/Safety.lean ====
section
/-! DEFINITION. What counts as a sound state of the block (10_state.md R16, R18; 60_exceptions.md R69), and the block
seen from its history alone: the key it holds and what it must answer (R33, R60 to R63). -/

namespace Sys2Proof.Machine

/-! ### Sound states -/

/-- R18: whenever VALID = 1, KEY is not `none` and SK[i] = KS(KEY, i) for every i. -/
def ScheduleMatchesKey (s : State) : Prop :=
  s.valid = 1#1 → ∃ key, s.key = some key ∧ ∀ i : Fin 16, readEntry s i = some (ks key i)

/-- The block is keyed with `key`: VALID, KEY and SK are those a successful LOAD_KEY leaves (R61). -/
def KeyedWith (key : Key) (s : State) : Prop :=
  s.valid = 1#1 ∧ s.key = some key ∧ ∀ i : Fin 16, readEntry s i = some (ks key i)

/-- The block is not keyed: VALID, KEY and SK are those reset or a failed LOAD_KEY leaves (R69, R77). -/
def Unkeyed (s : State) : Prop := s.valid = 0#1 ∧ s.key = none ∧ ∀ i : Fin 16, readEntry s i = none

/-- The block holds exactly this key, or none. -/
def Holds : Option Key → State → Prop
  | some key, s => KeyedWith key s
  | none, s => Unkeyed s

/-- The block is keyed with some key or is not keyed: nothing between (R31: no schedule is partly written). -/
def Coherent (s : State) : Prop := ∃ held, Holds held s

/-- Every entry can be read whenever VALID lets a read through (R16): no READ_SUBKEY reads `none`. -/
def Readable (s : State) : Prop := s.valid = 1#1 → ∀ i : Fin 16, readEntry s i ≠ none

/-! ### Events -/

/-- The event is a LOAD_KEY of the right length (R61). -/
def PortEvent.loadsKey (key : Key) (e : PortEvent) : Prop :=
  ∃ word, e = .request word ∧ decode word = .command (.loadKey Config.keyBytes key)

/-- The event is a reset or a LOAD_KEY of a wrong length: it leaves the block without a key (R69, R77). -/
def PortEvent.dropsKey (e : PortEvent) : Prop :=
  e = .reset ∨ ∃ word klen key, e = .request word ∧ decode word = .command (.loadKey klen key) ∧ klen ≠ Config.keyBytes

/-- The event is neither a reset nor a LOAD_KEY: a STATUS, a READ_SUBKEY or a refused word (R31). -/
def PortEvent.keepsKey : PortEvent → Bool
  | .reset => false
  | .request word =>
    match decode word with
    | .command (.loadKey _ _) => false
    | .command .status => true
    | .command (.readSubkey _ _) => true
    | .rejected _ => true

/-- How many of the events are requests. -/
def requestCount : List PortEvent → Nat
  | [] => 0
  | .request _ :: rest => requestCount rest + 1
  | .reset :: rest => requestCount rest

/-! ### The block seen from its history -/

/-- The key held after one event, given the key held before it (R61, R69, R77). -/
def keyAfter (held : Option Key) : PortEvent → Option Key
  | .reset => none
  | .request word =>
    match decode word with
    | .command (.loadKey klen key) => if klen = Config.keyBytes then some key else none
    | .command .status => held
    | .command (.readSubkey _ _) => held
    | .rejected _ => held

/-- What a request must be answered, given the key held when it comes (R60 to R63). A decoded round is below 16. -/
def answer (held : Option Key) (word : Request) : Response :=
  match decode word with
  | .command .status => packResponse .ok (if held.isSome then 1#48 else 0#48)
  | .command (.loadKey klen _) => if klen = Config.keyBytes then packResponse .ok 0#48 else packResponse .errKeyLength 0#48
  | .command (.readSubkey dir rnd) =>
    match held with
    | some key => packResponse .ok (ks key (idx dir (Fin.ofNat 16 rnd)))
    | none => packResponse .errNotKeyed 0#48
  | .rejected _ => packResponse .errIllegalCommand 0#48

/-- The key held after a list of events. -/
def keyAfterAll (held : Option Key) (events : List PortEvent) : Option Key := events.foldl keyAfter held

/-- What the requests among the events must be answered, in order. -/
def answers : Option Key → List PortEvent → List Response
  | _, [] => []
  | held, .request word :: rest => answer held word :: answers (keyAfter held (.request word)) rest
  | held, .reset :: rest => answers (keyAfter held .reset) rest

end Sys2Proof.Machine
end

