-- ==== Sys2Proof/Certificates/Slice0/Obligations.lean ====
section
/-! DEFINITION. The statements for the provers, in the order of the spec's files. Each docstring names the rule or
section it formalises. A response is written as a 52-bit word: an OK response is its RDATA zero-extended (R38, R65), the
three error responses are the words 0x1000000000000, 0x2000000000000 and 0x3000000000000. -/

open Sys2Proof Sys2Proof.Machine

/-! ### Encoding (30_encoding.md) -/

/-- Words written out from R37, R39, R43 and the vectors of 95_test_vectors.md: what each decodes to. -/
def Obligations.WrittenWordsDecode : Prop :=
  decode 0x00000000000000000000#80 = .command .status ∧
  decode 0x1800133457799BBCDFF1#80 = .command (.loadKey 8 0x133457799BBCDFF1#64) ∧
  decode 0x1F00FFFFFFFFFFFFFFFF#80 = .command (.loadKey 15 0xFFFFFFFFFFFFFFFF#64) ∧
  decode 0x20130000000000000000#80 = .command (.readSubkey .reverse 3) ∧
  decode 0x200E0000000000000000#80 = .command (.readSubkey .forward 14) ∧
  decode 0x00000000000000000001#80 = .rejected .mustBeZero ∧
  decode 0x1801133457799BBCDFF1#80 = .rejected .mustBeZero ∧
  decode 0x20001000000000000000#80 = .rejected .mustBeZero ∧
  decode 0x30000000000000000000#80 = .rejected .reservedOpcode

/-- Decode and encode agree on every well-formed command (R37, R39, R40): no bit of an operand is dropped. -/
def Obligations.DecodeOfEncodeIsTheCommand : Prop :=
  ∀ i : Instr, i.wellFormed = true → decode (encode i) = .command i

/-- The other direction: a word that decodes to a command is that command's one word, and the command is well formed
(R39, R40, R41: no word with a stray bit is a command). -/
def Obligations.DecodedCommandEncodesToItsWord : Prop :=
  ∀ (r : Request) (i : Instr), decode r = .command i → i.wellFormed = true ∧ encode i = r

/-- R39, both of its forms: the OPC table with its must-be-zero fields, and the three match/mask patterns. -/
def Obligations.DecodeFollowsTheOpcodeMap : Prop :=
  ∀ r : Request,
    (decode r = .command .status ↔ r.extractLsb' 76 4 = 0x0#4 ∧ r.extractLsb' 0 76 = 0#76) ∧
    (decode r = .command .status ↔ r &&& 0xFFFFFFFFFFFFFFFFFFFF#80 = 0x00000000000000000000#80) ∧
    ((∃ klen key, decode r = .command (.loadKey klen key)) ↔
      r.extractLsb' 76 4 = 0x1#4 ∧ r.extractLsb' 64 8 = 0#8) ∧
    ((∃ klen key, decode r = .command (.loadKey klen key)) ↔
      r &&& 0xF0FF0000000000000000#80 = 0x10000000000000000000#80) ∧
    ((∃ dir rnd, decode r = .command (.readSubkey dir rnd)) ↔
      r.extractLsb' 76 4 = 0x2#4 ∧ r.extractLsb' 69 7 = 0#7 ∧ r.extractLsb' 0 64 = 0#64) ∧
    ((∃ dir rnd, decode r = .command (.readSubkey dir rnd)) ↔
      r &&& 0xFFE0FFFFFFFFFFFFFFFF#80 = 0x20000000000000000000#80) ∧
    (3 ≤ (r.extractLsb' 76 4).toNat → decode r = .rejected .reservedOpcode) ∧
    (∀ why, decode r = .rejected why → ∀ s, serve r s = .next { s with rsp := some 0x3000000000000#52 })

/-- R40: every operand is its field read as an unsigned number, and with klen other than 8 the key is never used. -/
def Obligations.OperandsAreTheirFields : Prop :=
  (∀ (r : Request) (klen : Nat) (key : Key), decode r = .command (.loadKey klen key) →
    klen = (r.extractLsb' 72 4).toNat ∧ klen ≤ 15 ∧ key = r.extractLsb' 0 64) ∧
  (∀ (r : Request) (dir : Direction) (rnd : Nat), decode r = .command (.readSubkey dir rnd) →
    (dir = .reverse ↔ r.getLsbD 68 = true) ∧ rnd = (r.extractLsb' 64 4).toNat ∧ rnd ≤ 15) ∧
  (∀ (klen : Nat) (a b : Key) (s : State), klen ≤ 15 → klen ≠ 8 → exec (.loadKey klen a) s = exec (.loadKey klen b) s)

/-- R41, R63, R68: a reserved opcode or a set must-be-zero field is answered (ERR_ILLEGAL_COMMAND, 0) and changes
nothing but RSP; every other word is a command. -/
def Obligations.RefusedWordsChangeOnlyTheResponse : Prop :=
  ∀ (r : Request) (s : State),
    if 3 ≤ (r.extractLsb' 76 4).toNat ∨
        (r.extractLsb' 76 4 = 0x0#4 ∧ r.extractLsb' 0 76 ≠ 0#76) ∨
        (r.extractLsb' 76 4 = 0x1#4 ∧ r.extractLsb' 64 8 ≠ 0#8) ∨
        (r.extractLsb' 76 4 = 0x2#4 ∧ (r.extractLsb' 69 7 ≠ 0#7 ∨ r.extractLsb' 0 64 ≠ 0#64))
    then serve r s = .next { s with rsp := some 0x3000000000000#52 }
    else ∃ i, decode r = .command i

/-- From R44: the word of each line of assembler as a number, and the lines that produce no word. Operands are taken as
numbers, not as written digits: R44's 'a key of more than 16 hex digits' is read as a key of 2^64 or more, the model's
reading (DEDUCED, log 10), so a key written with leading zeros beyond 16 digits, an error in R44, is not told from its
value here. -/
def Obligations.AssembledWordIsItsFieldsAsANumber : Prop :=
  assemble .status = some 0#80 ∧
  (∀ klen key : Nat,
    if klen ≤ 15 ∧ key < 2 ^ 64
    then ∃ w, assemble (.loadKey klen key) = some w ∧ w.toNat = 1 * 2 ^ 76 + klen * 2 ^ 72 + key
    else assemble (.loadKey klen key) = none) ∧
  (∀ rnd : Nat,
    if rnd ≤ 15
    then (∃ w, assemble (.readSubkey .forward rnd) = some w ∧ w.toNat = 2 * 2 ^ 76 + rnd * 2 ^ 64) ∧
      (∃ w, assemble (.readSubkey .reverse rnd) = some w ∧ w.toNat = 2 * 2 ^ 76 + 2 ^ 68 + rnd * 2 ^ 64)
    else ∀ dir, assemble (.readSubkey dir rnd) = none) ∧
  (∀ w : Request, assemble (.word80 w) = some w)

/-- R45: what each pseudo-instruction expands to, and the reason the rule gives for it. -/
def Obligations.PseudoInstructionsDoWhatTheySay : Prop :=
  (∀ key : Nat, assemble (.key key) = assemble (.loadKey 8 key)) ∧
  (∀ rnd : Nat, assemble (.rkE rnd) = assemble (.readSubkey .forward rnd)) ∧
  (∀ rnd : Nat, assemble (.rkD rnd) = assemble (.readSubkey .reverse rnd)) ∧
  (∀ (key : Key) (s : State) (klen : Nat) (w : Request), klen ≤ 15 → assemble (.loadKey klen key.toNat) = some w →
    ∃ t, serve w s = .next t ∧ (t.valid = 1#1 ↔ klen = 8)) ∧
  (∀ (key : Key) (s : State) (rnd entry : Fin 16) (w : Request), KeyedWith key s →
    (assemble (.rkE rnd.val) = some w → serve w s = .next { s with rsp := some ((ks key rnd).setWidth 52) }) ∧
    (assemble (.rkD rnd.val) = some w → entry.val = 15 - rnd.val →
      serve w s = .next { s with rsp := some ((ks key entry).setWidth 52) }))

/-! ### The key-schedule function (00_scope.md R10, R11; 40_key_schedule_function.md) -/

/-- R10: DES numbering, and `select(v, w, T)[|T|-j] = v[w - T[j]]` for j = 1..|T|. -/
def Obligations.SelectTakesTheNamedBits : Prop :=
  (∀ (w : Nat) (v : BitVec w) (n : Nat), desBit v n = v.getLsbD (w - n)) ∧
  (∀ (w : Nat) (v : BitVec w) (table : List Nat) (j : Nat), 1 ≤ j → j ≤ table.length →
    (select v table).getLsbD (table.length - j) = v.getLsbD (w - table.getD (j - 1) 0) ∧
    desBit (select v table) j = desBit v (table.getD (j - 1) 0))

/-- R11: the rotation as the rule computes it (on a value wide enough to lose no bit), its two ends, and where each bit
goes: the bit that leaves DES bit 1 enters at DES bit 28. -/
def Obligations.RotationMovesEachBit : Prop :=
  (∀ (x : Half) (n : Nat), n ≤ 28 →
    rotl28 x n = ((x.setWidth 56 <<< n) ||| (x.setWidth 56 >>> (28 - n))).extractLsb' 0 28 ∧
    ∀ j, 1 ≤ j → j ≤ 28 → desBit (rotl28 x n) j = desBit x ((j - 1 + n) % 28 + 1)) ∧
  (∀ x : Half, rotl28 x 0 = x ∧ rotl28 x 28 = x) ∧
  (∀ x : Half, desBit (rotl28 x 1) 28 = desBit x 1 ∧ ∀ j, 1 ≤ j → j < 28 → desBit (rotl28 x 1) j = desBit x (j + 1))

/-- R47: the PC1 table, what it selects, and that it names each bit that is not a parity bit exactly once. -/
def Obligations.Pc1SelectsTheKeyBits : Prop :=
  pc1 = [57, 49, 41, 33, 25, 17, 9, 1, 58, 50, 42, 34, 26, 18, 10, 2, 59, 51, 43, 35, 27, 19, 11, 3, 60, 52, 44, 36,
    63, 55, 47, 39, 31, 23, 15, 7, 62, 54, 46, 38, 30, 22, 14, 6, 61, 53, 45, 37, 29, 21, 13, 5, 28, 20, 12, 4] ∧
  (∀ (key : Key) (j : Nat), 1 ≤ j → j ≤ 56 → desBit (pc1Select key) j = desBit key (pc1.getD (j - 1) 0)) ∧
  (∀ n, pc1.count n = if 1 ≤ n ∧ n ≤ 64 ∧ n % 8 ≠ 0 then 1 else 0)

/-- R48: C is the more significant half of the PC1 output, DES bits 1 to 28, and D the rest. -/
def Obligations.HalvesSplitThePc1Output : Prop :=
  ∀ (key : Key),
    halfC key = (pc1Select key).extractLsb' 28 28 ∧ halfD key = (pc1Select key).extractLsb' 0 28 ∧
    ∀ j, 1 ≤ j → j ≤ 28 →
      desBit (halfC key) j = desBit (pc1Select key) j ∧ desBit (halfD key) j = desBit (pc1Select key) (28 + j)

/-- R49, R50, R51: the shift table and its sums, and rotating once by the sum equals rotating round by round. -/
def Obligations.SteppedRotationIsTheCumulativeOne : Prop :=
  (List.range 16).map shift = [1, 1, 2, 2, 2, 2, 2, 2, 1, 2, 2, 2, 2, 2, 2, 1] ∧
  (List.range 16).map cum = [1, 2, 4, 6, 8, 10, 12, 14, 15, 17, 19, 21, 23, 25, 27, 28] ∧
  (∀ i : Fin 16, cum i = ((List.range (i + 1)).map shift).sum ∧ 1 ≤ cum i ∧ cum i ≤ 28) ∧
  (∀ (x : Half) (a b : Nat), a ≤ 28 → b ≤ 28 → rotl28 (rotl28 x a) b = rotl28 x ((a + b) % 28)) ∧
  (∀ (key : Key) (i : Fin 16),
    rotatedCD key i = rotl28 (halfC key) (cum i) ++ rotl28 (halfD key) (cum i) ∧
    steppedHalf (halfC key) (i + 1) = rotl28 (halfC key) (cum i) ∧
    steppedHalf (halfD key) (i + 1) = rotl28 (halfD key) (cum i)) ∧
  (∀ (x : Half) (i : Nat), steppedHalf x 0 = x ∧ steppedHalf x (i + 1) = rotl28 (steppedHalf x i) (shift i))

/-- R52: the PC2 table, what it selects, from which half, and which positions it never selects. -/
def Obligations.Pc2SelectsFromBothHalves : Prop :=
  pc2 = [14, 17, 11, 24, 1, 5, 3, 28, 15, 6, 21, 10, 23, 19, 12, 4, 26, 8, 16, 7, 27, 20, 13, 2,
    41, 52, 31, 37, 47, 55, 30, 40, 51, 45, 33, 48, 44, 49, 39, 56, 34, 53, 46, 42, 50, 36, 29, 32] ∧
  (∀ (cd : CD) (j : Nat), 1 ≤ j → j ≤ 48 → desBit (pc2Select cd) j = desBit cd (pc2.getD (j - 1) 0)) ∧
  (∀ (c d : Half) (j : Nat), 1 ≤ j → j ≤ 48 →
    desBit (pc2Select (c ++ d)) j =
      if j ≤ 24 then desBit c (pc2.getD (j - 1) 0) else desBit d (pc2.getD (j - 1) 0 - 28)) ∧
  (∀ n, pc2.count n = if 1 ≤ n ∧ n ≤ 56 ∧ n ∉ [9, 18, 22, 25, 35, 38, 43, 54] then 1 else 0)

/-- R53: the function as the rule's pseudocode writes it, and its worked example. -/
def Obligations.KsIsTheFourStages : Prop :=
  (∀ (key : Key) (i : Fin 16),
    let cd0 : CD := select key pc1
    let c := rotl28 (cd0.extractLsb' 28 28) (cum i)
    let d := rotl28 (cd0.extractLsb' 0 28) (cum i)
    let cd : CD := c ++ d
    ks key i = (select cd pc2 : Subkey)) ∧
  (∀ (key : Key) (i : Fin 16), (schedule key)[i] = ks key i) ∧
  ks 0x133457799BBCDFF1#64 0 = 0x1B02EFFC7072#48

/-- R54: the direction mapping, and with it the two sweeps of a client: the decryption order returns the encryption
order reversed. -/
def Obligations.DecryptionSweepIsTheEncryptionSweepReversed : Prop :=
  (∀ r : Fin 16, idx .forward r = r ∧ (idx .reverse r).val = 15 - r.val ∧
    BitVec.ofNat 4 (idx .reverse r).val = ~~~(BitVec.ofNat 4 r.val)) ∧
  (∀ (dir : Direction), Function.Bijective (idx dir)) ∧
  (∀ r m : Fin 16, m.val = 15 - r.val → idx .reverse r = idx .forward m) ∧
  idx .reverse 0 = 15 ∧ idx .reverse 15 = 0 ∧ idx .forward 7 = 7 ∧
  (∀ (key : Key) (s : State), KeyedWith key s →
    ∃ te td, run ((List.range 16).map fun r => .request (encode (.readSubkey .forward r))) s =
        .next (te, (List.ofFn (ks key)).map (BitVec.setWidth 52)) ∧
      run ((List.range 16).map fun r => .request (encode (.readSubkey .reverse r))) s =
        .next (td, (List.ofFn (ks key)).reverse.map (BitVec.setWidth 52)))

/-- R55: a mask inside the parity bits changes no subkey; the block accepts every parity. -/
def Obligations.ParityBitsAreIgnored : Prop :=
  (∀ (k m : Key) (i : Fin 16), m &&& 0xFEFEFEFEFEFEFEFE#64 = 0#64 → ks k i = ks (k ^^^ m) i) ∧
  (∀ (k : Key) (s : State), ∃ t, exec (.loadKey 8 k) s = .next t ∧ t.rsp = some 0#52 ∧ t.valid = 1#1) ∧
  (∀ i : Fin 16, ks 0x0000000000000000#64 i = 0#48 ∧ ks 0x0101010101010101#64 i = 0#48)

/-- R56: KS copies key bits, as the printed table SRC says; so it is linear, and each key bit that is not a parity bit
reaches 12 to 15 subkeys. -/
def Obligations.KsCopiesTheBitsOfTheSourceTable : Prop :=
  (∀ (key : Key) (i : Fin 16) (j : Nat), 1 ≤ j → j ≤ 48 → desBit (ks key i) j = desBit key (sourceTable i j)) ∧
  (∀ (a b : Key) (i : Fin 16), ks (a ^^^ b) i = ks a i ^^^ ks b i) ∧
  (∀ i : Fin 16, ks 0#64 i = 0#48) ∧
  bitsCopied 12 = 4 ∧ bitsCopied 13 = 20 ∧ bitsCopied 14 = 20 ∧ bitsCopied 15 = 12

/-- R57: the last round's halves are the unrotated ones. -/
def Obligations.LastRoundReturnsToTheFirstHalves : Prop :=
  cum 15 = 28 ∧
  (∀ key : Key, rotl28 (halfC key) (cum 15) = halfC key ∧ rotl28 (halfD key) (cum 15) = halfD key) ∧
  (∀ key : Key, ks key 15 = pc2Select (pc1Select key)) ∧
  (∀ x : Half, steppedHalf x 16 = x)

/-- R58: the positions PC2 drops do not reach the subkey, the missing key bits change from round to round, and the keys
with constant halves, which are the four named ones up to parity, give 16 equal subkeys. -/
def Obligations.WeakKeysGiveEqualSubkeys : Prop :=
  (∀ cd m : CD, (∀ p, p ∉ [9, 18, 22, 25, 35, 38, 43, 54] → desBit m p = false) →
    pc2Select (cd ^^^ m) = pc2Select cd) ∧
  (∀ i : Fin 16, ((List.range' 1 64).filter fun n => n % 8 ≠ 0 ∧ n ∉ sourceRows.getD i []).length = 8) ∧
  (∀ i : Fin 15, ((List.range' 1 64).filter fun n => n % 8 ≠ 0 ∧ n ∉ sourceRows.getD i []) ≠
    ((List.range' 1 64).filter fun n => n % 8 ≠ 0 ∧ n ∉ sourceRows.getD (i + 1) [])) ∧
  (∀ key : Key,
    ((halfC key = 0#28 ∨ halfC key = 0xFFFFFFF#28) ∧ (halfD key = 0#28 ∨ halfD key = 0xFFFFFFF#28)) ↔
    (key &&& 0xFEFEFEFEFEFEFEFE#64) ∈
      [0x0101010101010101#64, 0xFEFEFEFEFEFEFEFE#64, 0x1F1F1F1F0E0E0E0E#64, 0xE0E0E0E0F1F1F1F1#64].map
        (· &&& 0xFEFEFEFEFEFEFEFE#64)) ∧
  (∀ key : Key, (halfC key = 0#28 ∨ halfC key = 0xFFFFFFF#28) → (halfD key = 0#28 ∨ halfD key = 0xFFFFFFF#28) →
    ∀ i j : Fin 16, ks key i = ks key j)

/-! ### Byte and bit order (20_memory.md section 2) -/

/-- R28: byte 0 of the key is the most significant byte of KEYDATA, and DES key bit n is KEYDATA[64-n]. -/
def Obligations.KeyBytesAreBigEndian : Prop :=
  (∀ (k : Vector Byte 8) (j : Fin 8),
    (keyOfBytes k).extractLsb' (56 - 8 * j.val) 8 = k[j] ∧ keyByte (keyOfBytes k) j = k[j]) ∧
  (∀ (k : Vector Byte 8) (j b : Nat) (hj : j < 8), 1 ≤ b → b ≤ 8 →
    desBit (keyOfBytes k) (8 * j + b) = desBit (k[j]'hj) b) ∧
  (∀ (k : Vector Byte 8) (klen : Nat), klen ≤ 15 →
    (encode (.loadKey klen (keyOfBytes k))).extractLsb' 0 64 = keyOfBytes k) ∧
  keyOfBytes #v[0x13#8, 0x34#8, 0x57#8, 0x79#8, 0x9B#8, 0xBC#8, 0xDF#8, 0xF1#8] = 0x133457799BBCDFF1#64

/-- R29: DES bit j of the subkey a READ_SUBKEY returns is bit 48 - j of the response, and group g holds DES bits 6g-5 to
6g. -/
def Obligations.SubkeyBitsAreInResponseOrder : Prop :=
  (∀ (key : Key) (s : State) (dir : Direction) (rnd : Fin 16) (j : Nat), KeyedWith key s → 1 ≤ j → j ≤ 48 →
    ∃ t r, exec (.readSubkey dir rnd) s = .next t ∧ t.rsp = some r ∧
      r.getLsbD (48 - j) = desBit (ks key (idx dir rnd)) j) ∧
  (∀ (v : Subkey) (g b : Nat), 1 ≤ g → g ≤ 8 → 1 ≤ b → b ≤ 6 → desBit (subkeyGroup v g) b = desBit v (6 * g - 6 + b))

/-! ### Commands (41_commands.md) -/

/-- The step and the decoder (R59): the word at the head of the port runs as the command it decodes to, on the state
without that word; a word that is no command is answered as illegal. -/
def Obligations.StepRunsTheDecodedCommand : Prop :=
  ∀ (s : State) (word : Request) (rest : List PortEvent), s.port = .request word :: rest →
    (∀ i, decode word = .command i → step s = exec i { s with port := rest }) ∧
    (∀ why, decode word = .rejected why →
      step s = .next { s with port := rest, rsp := some 0x3000000000000#52 })

/-- A command's word presented to the block is its very next command (R59, R21): what `withFetchWord` stands for. -/
def Obligations.PresentedWordIsTheNextCommand : Prop :=
  ∀ (s : State) (i : Instr), i.wellFormed = true → step (s.withFetchWord 80 (encode i).toNat) = exec i s

/-- R59: the four arms on the bits of the request, and a response for each that completes. -/
def Obligations.RequestReachesExactlyOneArm : Prop :=
  (∀ (r : Request) (s : State),
    serve r s =
      if r.extractLsb' 76 4 = 0x0#4 ∧ r.extractLsb' 0 76 = 0#76 then exec .status s
      else if r.extractLsb' 76 4 = 0x1#4 ∧ r.extractLsb' 64 8 = 0#8 then
        exec (.loadKey (r.extractLsb' 72 4).toNat (r.extractLsb' 0 64)) s
      else if r.extractLsb' 76 4 = 0x2#4 ∧ r.extractLsb' 69 7 = 0#7 ∧ r.extractLsb' 0 64 = 0#64 then
        exec (.readSubkey (if r.getLsbD 68 then .reverse else .forward) (r.extractLsb' 64 4).toNat) s
      else .next { s with rsp := some 0x3000000000000#52 }) ∧
  (∀ (r : Request) (s t : State), serve r s = .next t → t.rsp ≠ none)

/-- The model's reading of "the block never steps without a request" (log 2, DEDUCED): a step answers noRequest exactly
when the port is empty, and then there is no next state. -/
def Obligations.StepNeedsAnEventOnThePort : Prop :=
  ∀ s : State, (step s = .refused .noRequest ↔ s.port = []) ∧ (s.port = [] → ∀ t, step s ≠ .next t)

/-- R60, whole: STATUS completes in every state, answers zext(VALID) and changes nothing but RSP; its word is 0; with any
other bit set the opcode is illegal; RDATA[47:1] is 0; the rule's two examples. -/
def Obligations.StatusReportsValid : Prop :=
  (∀ s : State, exec .status s = .next { s with rsp := some (s.valid.setWidth 52) }) ∧
  (∀ s : State, serve 0x00000000000000000000#80 s = .next { s with rsp := some (s.valid.setWidth 52) }) ∧
  (∀ (r : Request) (s : State), r.extractLsb' 76 4 = 0x0#4 → r ≠ 0#80 →
    serve r s = .next { s with rsp := some 0x3000000000000#52 }) ∧
  (∀ (s t : State) (r : Response), exec .status s = .next t → t.rsp = some r → r.extractLsb' 1 47 = 0#47) ∧
  exec .status State.reset = .next { State.reset with rsp := some 0x0000000000000#52 } ∧
  (∀ (key : Key) (s t u : State), exec (.loadKey 8 key) s = .next t → exec .status t = .next u →
    u.rsp = some 0x0000000000001#52)

/-- R61, whole: a LOAD_KEY of length 8 completes in every state and makes the block keyed with the key's 16 subkeys; of
any other length it leaves the block without a key; the corner cases and the example. -/
def Obligations.LoadKeyReplacesTheWholeSchedule : Prop :=
  (∀ (key : Key) (s : State), exec (.loadKey 8 key) s =
    .next { s with key := some key, sk := Vector.ofFn fun i => some (ks key i), valid := 1#1, rsp := some 0#52 }) ∧
  (∀ (klen : Nat) (key : Key) (s : State), klen ≤ 15 → klen ≠ 8 → exec (.loadKey klen key) s =
    .next { s with key := none, sk := Vector.replicate 16 none, valid := 0#1, rsp := some 0x1000000000000#52 }) ∧
  (∀ (r : Request) (s : State), r.extractLsb' 76 4 = 0x1#4 →
    serve r s = if r.extractLsb' 64 8 = 0#8 then exec (.loadKey (r.extractLsb' 72 4).toNat (r.extractLsb' 0 64)) s
      else .next { s with rsp := some 0x3000000000000#52 }) ∧
  (∀ (key : Key) (s t u : State), exec (.loadKey 8 key) s = .next t → exec (.loadKey 8 key) t = .next u → u = t) ∧
  (∀ (klen rnd : Nat) (key : Key) (dir : Direction) (s t : State), klen ≤ 15 → klen ≠ 8 → rnd ≤ 15 →
    exec (.loadKey klen key) s = .next t → exec (.readSubkey dir rnd) t = .next { t with rsp := some 0x2000000000000#52 }) ∧
  (∀ i : Fin 16, ks 0#64 i = 0#48) ∧
  (∀ s : State, ∃ t, serve 0x1800133457799BBCDFF1#80 s = .next t ∧ t.rsp = some 0x0000000000000#52 ∧
    readEntry t 0 = some 0x1B02EFFC7072#48 ∧ readEntry t 15 = some 0xCB3D8B0E17F5#48)

/-- R62, whole: a READ_SUBKEY of a keyed block completes with (OK, SK[idx(dir, rnd)]), of an unkeyed block with
(ERR_NOT_KEYED, 0), and changes nothing but RSP; the corner cases and the example. -/
def Obligations.ReadSubkeyReturnsTheEntry : Prop :=
  (∀ (dir : Direction) (rnd : Fin 16) (s : State) (v : Subkey), s.valid = 1#1 → readEntry s (idx dir rnd) = some v →
    exec (.readSubkey dir rnd) s = .next { s with rsp := some (v.setWidth 52) }) ∧
  (∀ (dir : Direction) (rnd : Fin 16) (s : State), s.valid = 0#1 →
    exec (.readSubkey dir rnd) s = .next { s with rsp := some 0x2000000000000#52 }) ∧
  (∀ (r : Request) (s : State), r.extractLsb' 76 4 = 0x2#4 →
    serve r s = if r.extractLsb' 69 7 = 0#7 ∧ r.extractLsb' 0 64 = 0#64 then
        exec (.readSubkey (if r.getLsbD 68 then .reverse else .forward) (r.extractLsb' 64 4).toNat) s
      else .next { s with rsp := some 0x3000000000000#52 }) ∧
  (∀ (r m : Fin 16) (s : State), m.val = 15 - r.val → exec (.readSubkey .forward r) s = exec (.readSubkey .reverse m) s) ∧
  (∀ (dir : Direction) (rnd : Fin 16) (between : List PortEvent) (s t u : State) (rs : List Response),
    (∀ e ∈ between, e.keepsKey = true) → exec (.readSubkey dir rnd) s = .next t → run between t = .next (u, rs) →
    ∃ w, exec (.readSubkey dir rnd) u = .next w ∧ w.rsp = t.rsp) ∧
  (∀ s t : State, exec (.loadKey 8 0x133457799BBCDFF1#64) s = .next t →
    serve 0x20100000000000000000#80 t = .next { t with rsp := some 0x0CB3D8B0E17F5#52 })

/-- R64, R74: every well-formed command completes, with exactly one response, in every state whose readable entries hold
values (which every run keeps); there is no mode in which it would not. -/
def Obligations.EveryCommandCompletes : Prop :=
  ∀ (i : Instr) (s : State), i.wellFormed = true → Readable s →
    ∃ t r, exec i s = .next t ∧ t.rsp = some r ∧ t.port = s.port

/-! ### Registers (10_state.md) -/

/-- What a command leaves unchanged (R14 "written by", R19, R22): STATUS and READ_SUBKEY write no register but RSP, and
no command touches the host's later events. -/
def Obligations.OnlyLoadKeyWritesKeySkAndValid : Prop :=
  ∀ (i : Instr) (s t : State), exec i s = .next t →
    t.port = s.port ∧
    ((∀ klen key, i ≠ .loadKey klen key) → t.key = s.key ∧ t.sk = s.sk ∧ t.valid = s.valid)

/-- R15: KEY is the key of the last successful LOAD_KEY; only such a load gives it a key, a failed load and reset clear
it, and no response depends on it. -/
def Obligations.KeyIsWrittenByLoadKeyAndNeverReadBack : Prop :=
  (∀ (s t : State) (e : PortEvent) (rest : List PortEvent), s.port = e :: rest → step s = .next t →
    (∀ key, e.loadsKey key → t.key = some key) ∧ (e.dropsKey → t.key = none) ∧ (e.keepsKey = true → t.key = s.key)) ∧
  (∀ (events : List PortEvent) (t : State) (rs : List Response), run events State.reset = .next (t, rs) →
    t.key = keyAfterAll none events) ∧
  (∀ (r : Request) (s : State) (k : Option Key),
    (∀ t, serve r s = .next t → ∃ u, serve r { s with key := k } = .next u ∧ u.rsp = t.rsp ∧ u.valid = t.valid ∧ u.sk = t.sk))

/-- R16: which events write VALID, and what it means after any run from reset. -/
def Obligations.ValidFollowsTheLastLoad : Prop :=
  (∀ (s t : State) (e : PortEvent) (rest : List PortEvent), s.port = e :: rest → step s = .next t →
    (∀ key, e.loadsKey key → t.valid = 1#1) ∧ (e.dropsKey → t.valid = 0#1) ∧ (e.keepsKey = true → t.valid = s.valid)) ∧
  (∀ e : PortEvent, (∃ key, e.loadsKey key) ∨ e.dropsKey ∨ e.keepsKey = true) ∧
  (∀ (events : List PortEvent) (t : State) (rs : List Response), run events State.reset = .next (t, rs) →
    (t.valid = 1#1 → ∃ key, keyAfterAll none events = some key ∧ KeyedWith key t) ∧
    (t.valid = 0#1 → keyAfterAll none events = none)) ∧
  (∀ s : State, ∃ t, exec .status s = .next t ∧ t.rsp = some (s.valid.setWidth 52)) ∧
  (∀ (dir : Direction) (rnd : Fin 16) (s : State), s.valid = 0#1 →
    exec (.readSubkey dir rnd) s = .next { s with rsp := some 0x2000000000000#52 }) ∧
  (∀ (events : List PortEvent), run events State.reset ≠ .fault .readOfNone)

/-- R18: whenever VALID = 1, KEY holds a key and every SK[i] is its subkey; every step keeps this. While VALID = 0 no
command reads KEY or SK. -/
def Obligations.StepKeepsScheduleMatchingKey : Prop :=
  (∀ s t : State, ScheduleMatchesKey s → step s = .next t → ScheduleMatchesKey t) ∧
  (∀ (r : Request) (s : State) (k : Option Key) (sk : Vector (Option Subkey) 16), s.valid = 0#1 →
    ∀ t, serve r s = .next t →
      ∃ u, serve r { s with key := k, sk := sk } = .next u ∧ u.rsp = t.rsp ∧ u.valid = t.valid)

/-- The invariants hold right after reset (R18, R77). -/
def Obligations.ResetStateIsCoherent : Prop :=
  ScheduleMatchesKey State.reset ∧ Coherent State.reset ∧ Readable State.reset ∧ Holds none State.reset

/-- R14, R31, R69: the block is keyed with one key or holds nothing at all; every step keeps this, so no schedule is ever
partly written. -/
def Obligations.StepKeepsCoherence : Prop :=
  ∀ s t : State, Coherent s → step s = .next t → Coherent t

/-- R19: the schedule is never reordered or mutated in place: whatever reads, status queries and refused words come,
KEY, SK and VALID stay as they were, and the order of a read is a property of that read alone. -/
def Obligations.ReadsNeverMutateTheSchedule : Prop :=
  (∀ (events : List PortEvent) (s t : State) (rs : List Response), (∀ e ∈ events, e.keepsKey = true) →
    run events s = .next (t, rs) → t.key = s.key ∧ t.sk = s.sk ∧ t.valid = s.valid ∧ t.port = s.port) ∧
  (∀ (key : Key) (s : State) (rnd entry : Fin 16), KeyedWith key s → entry.val = 15 - rnd.val →
    exec (.readSubkey .forward rnd) s = .next { s with rsp := some ((ks key rnd).setWidth 52) } ∧
    exec (.readSubkey .reverse rnd) s = .next { s with rsp := some ((ks key entry).setWidth 52) })

/-- R20, R22, R72: RSP is written by every command and read by none, so an error leaves nothing behind that a later
command could see. -/
def Obligations.NoCommandReadsTheResponseRegister : Prop :=
  (∀ (r : Request) (s : State) (old : Option Response), serve r { s with rsp := old } = serve r s) ∧
  (∀ (r : Request) (s t : State), serve r s = .next t → t.rsp ≠ none) ∧
  (∀ s : State, (assertReset s).rsp = none) ∧ State.reset.rsp = none

/-- R17, D19, I3: a block that recomputes each subkey from KEY instead of storing it gives the same responses and the
same final VALID on every run, from reset and from every coherent state. Lists that end in a reset, which R85 does not
have, are runs by the model's choice (log 12). -/
def Obligations.StoringTheScheduleCannotBeObserved : Prop :=
  (∀ events : List PortEvent, observation (run events State.reset) =
    observation (runWith recomputeHandle events State.reset)) ∧
  (∀ (events : List PortEvent) (s : State), Coherent s →
    observation (run events s) = observation (runWith recomputeHandle events s))

/-! ### Ordering (20_memory.md) -/

/-- R31: STATUS and READ_SUBKEY are idempotent: while no LOAD_KEY or reset comes between, the same request gives the same
response. -/
def Obligations.RepeatedRequestGivesTheSameResponse : Prop :=
  ∀ (r : Request) (between : List PortEvent) (s t : State) (rs : List Response),
    (PortEvent.request r).keepsKey = true → (∀ e ∈ between, e.keepsKey = true) →
    run between s = .next (t, rs) →
    ∀ s' t', serve r s = .next s' → serve r t = .next t' → t'.rsp = s'.rsp

/-- R33: commands run one at a time in the host's issue order: a run of two lists is the second run from the state the
first left, and the machine's steps take the port's events in exactly that order. Any list of events from any state is
a run by the model's choice, wider than R85's (log 12). -/
def Obligations.RunsComposeInIssueOrder : Prop :=
  (∀ (first second : List PortEvent) (s t u : State) (rs us : List Response), run first s = .next (t, rs) →
    run second t = .next (u, us) → run (first ++ second) s = .next (u, rs ++ us)) ∧
  (∀ (events later : List PortEvent) (s t : State) (rs : List Response), run events { s with port := later } = .next (t, rs) →
    Host.Core.run core events.length { s with port := events ++ later } = .next t)

/-! ### Errors (60_exceptions.md) -/

/-- R65, R66, R68: which status codes the block produces, with which RDATA, and exactly when. -/
def Obligations.StatusCodesAreRaisedExactlyWhenStated : Prop :=
  ∀ (r : Request) (s t : State), serve r s = .next t →
    ∃ rsp, t.rsp = some rsp ∧
      (rsp.extractLsb' 48 4).toNat ≤ 3 ∧
      (rsp.extractLsb' 48 4 ≠ 0x0#4 → rsp.extractLsb' 0 48 = 0#48) ∧
      (rsp.extractLsb' 48 4 = 0x1#4 ↔ ∃ klen key, decode r = .command (.loadKey klen key) ∧ klen ≠ 8) ∧
      (rsp.extractLsb' 48 4 = 0x2#4 ↔ ∃ dir rnd, decode r = .command (.readSubkey dir rnd) ∧ s.valid = 0#1) ∧
      (rsp.extractLsb' 48 4 = 0x3#4 ↔ ∃ why, decode r = .rejected why)

/-- R67: ERR_NOT_KEYED is the answer of a READ_SUBKEY exactly when VALID = 0: after reset and before any successful
LOAD_KEY, or after a LOAD_KEY that failed. -/
def Obligations.NotKeyedIsRaisedExactlyWhenUnkeyed : Prop :=
  (∀ (dir : Direction) (rnd : Fin 16) (s : State), s.valid = 0#1 →
    exec (.readSubkey dir rnd) s = .next { s with rsp := some 0x2000000000000#52 }) ∧
  (∀ (r : Request) (s t : State), serve r s = .next t →
    (t.rsp = some 0x2000000000000#52 ↔ ∃ dir rnd, decode r = .command (.readSubkey dir rnd) ∧ s.valid = 0#1)) ∧
  (∀ (events : List PortEvent) (t : State) (rs : List Response), run events State.reset = .next (t, rs) →
    (t.valid = 0#1 ↔ keyAfterAll none events = none))

/-- R69: the state effect of each error, and that while VALID = 0 no response depends on the bits KEY and SK hold. -/
def Obligations.ErrorsHaveTheirStatedEffect : Prop :=
  (∀ (r : Request) (s t : State), serve r s = .next t → t.rsp = some 0x1000000000000#52 →
    t.key = none ∧ (∀ i, readEntry t i = none) ∧ t.valid = 0#1) ∧
  (∀ (r : Request) (s t : State), serve r s = .next t → t.rsp = some 0x2000000000000#52 →
    t = { s with rsp := some 0x2000000000000#52 } ∧ s.valid = 0#1) ∧
  (∀ (r : Request) (s t : State), serve r s = .next t → t.rsp = some 0x3000000000000#52 →
    t = { s with rsp := some 0x3000000000000#52 }) ∧
  (∀ (r : Request) (s : State) (k : Option Key) (sk : Vector (Option Subkey) 16), s.valid = 0#1 →
    ∀ t, serve r s = .next t → ∃ u, serve r { s with key := k, sk := sk } = .next u ∧ u.rsp = t.rsp)

/-- R70: the decode check comes before the command's own check, and each command has at most one. -/
def Obligations.DecodeCheckComesFirst : Prop :=
  ∀ (r : Request) (s : State),
    match decode r with
    | .rejected _ => serve r s = .next { s with rsp := some 0x3000000000000#52 }
    | .command .status => ∃ t rsp, serve r s = .next t ∧ t.rsp = some rsp ∧ rsp.extractLsb' 48 4 = 0x0#4
    | .command (.loadKey klen _) =>
      ∃ t, serve r s = .next t ∧ t.rsp = some (if klen = 8 then 0#52 else 0x1000000000000#52)
    | .command (.readSubkey _ _) =>
      if s.valid = 0#1 then serve r s = .next { s with rsp := some 0x2000000000000#52 }
      else ∀ t, serve r s = .next t → ∃ v : Subkey, t.rsp = some (v.setWidth 52)

/-- R73: no request forms a round above 15 and no table position is out of its range; a READ_SUBKEY term with a round
above 15 faults, and neither wraps nor clamps. -/
def Obligations.RoundAboveFifteenFaults : Prop :=
  (∀ (dir : Direction) (rnd : Nat) (s : State), 15 < rnd → exec (.readSubkey dir rnd) s = .fault .roundOutOfRange) ∧
  (∀ (dir : Direction) (rnd : Nat) (s : State), rnd ≤ 15 → exec (.readSubkey dir rnd) s ≠ .fault .roundOutOfRange) ∧
  (∀ (r : Request) (s : State), serve r s ≠ .fault .roundOutOfRange) ∧
  (∀ n ∈ pc1, 1 ≤ n ∧ n ≤ 64) ∧ (∀ n ∈ pc2, 1 ≤ n ∧ n ≤ 56)

/-- R12 and I1: a read of a register that holds `none` is a fault of the model, and it needs VALID = 1 together with an
empty entry, which no coherent state has. -/
def Obligations.ReadOfNoneFaults : Prop :=
  (∀ (dir : Direction) (rnd : Fin 16) (s : State), s.valid = 1#1 → readEntry s (idx dir rnd) = none →
    exec (.readSubkey dir rnd) s = .fault .readOfNone) ∧
  (∀ (dir : Direction) (rnd : Fin 16) (s : State), Coherent s → exec (.readSubkey dir rnd) s ≠ .fault .readOfNone)

/-- R16, R18, R73: from every readable state a step never faults, is refused only when the port is empty, and leaves a
readable state. -/
def Obligations.StepNeverFaultsFromReadableStates : Prop :=
  ∀ s : State, Readable s →
    (∀ f, step s ≠ .fault f) ∧ (∀ why, step s = .refused why → s.port = []) ∧ (∀ t, step s = .next t → Readable t)

/-- R16, R69, R85: a run of an unkeyed block is observed the same whatever bits its KEY and SK hold and whatever it
answered before. Any list of events from any state is a run, and one that ends in a reset is observed after it, by the
model's choice (log 12). -/
def Obligations.UnkeyedContentsCannotBeObserved : Prop :=
  ∀ (events : List PortEvent) (s t : State), s.valid = 0#1 → t.valid = 0#1 →
    observation (run events s) = observation (run events t)

/-! ### Reset, boot, hazards and runs (70_reset_and_hazards.md) -/

/-- R77: a reset sets every register to its reset value; these are the values of the state after reset. -/
def Obligations.ResetSetsEveryRegister : Prop :=
  (∀ (s : State) (rest : List PortEvent), s.port = .reset :: rest →
    step s = .next { key := none, sk := Vector.replicate 16 none, valid := 0#1, rsp := none, port := rest }) ∧
  State.reset.valid = 0#1 ∧ State.reset.key = none ∧ (∀ i, readEntry State.reset i = none) ∧ State.reset.rsp = none

/-- R78: the state after a reset is that of R77 whatever came before it, and what came before cannot be told from it.
Where nothing, or a reset only, follows that reset, the observation after it is the model's choice (log 12). -/
def Obligations.ResetForgetsEverythingBefore : Prop :=
  ∀ (before after : List PortEvent) (s : State), Readable s →
    ∃ t rs, run before s = .next (t, rs) ∧ assertReset t = assertReset s ∧
      observation (run (before ++ .reset :: after) s) =
        (observation (run after State.reset)).map fun o => (rs ++ o.1, o.2)

/-- R79: from reset, every READ_SUBKEY answers ERR_NOT_KEYED until a `load_key 8` comes; after it, with any reads and
status queries between, a READ_SUBKEY returns the key's subkey. Nothing else needs initialising. -/
def Obligations.ReadSucceedsOnlyAfterALoad : Prop :=
  (∀ (before : List PortEvent) (dir : Direction) (rnd : Fin 16), (∀ e ∈ before, ∀ key, ¬ e.loadsKey key) →
    ∃ t rs, run (before ++ [.request (encode (.readSubkey dir rnd))]) State.reset =
      .next (t, rs ++ [0x2000000000000#52])) ∧
  (∀ (before between : List PortEvent) (key : Key) (dir : Direction) (rnd : Fin 16),
    (∀ e ∈ between, e.keepsKey = true) →
    ∃ t rs, run (before ++ .request (encode (.loadKey 8 key)) :: (between ++
        [.request (encode (.readSubkey dir rnd))])) State.reset =
      .next (t, rs ++ [(ks key (idx dir rnd)).setWidth 52]))

/-- R80: the block does not detect a re-key between two reads: each read returns the subkey of the key current when it
executes, or ERR_NOT_KEYED after a reset or a failed load. -/
def Obligations.EachReadUsesTheCurrentKey : Prop :=
  ∀ (s : State) (a b : Key) (d e : Direction) (i j : Fin 16),
    (∃ t, run [.request (encode (.loadKey 8 a)), .request (encode (.readSubkey d i)),
        .request (encode (.loadKey 8 b)), .request (encode (.readSubkey e j))] s =
      .next (t, [0#52, (ks a (idx d i)).setWidth 52, 0#52, (ks b (idx e j)).setWidth 52])) ∧
    (∃ t, run [.request (encode (.loadKey 8 a)), .request (encode (.readSubkey d i)), .reset,
        .request (encode (.readSubkey e j))] s =
      .next (t, [0#52, (ks a (idx d i)).setWidth 52, 0x2000000000000#52])) ∧
    (∀ klen, klen ≤ 15 → klen ≠ 8 →
      ∃ t, run [.request (encode (.loadKey 8 a)), .request (encode (.readSubkey d i)),
          .request (encode (.loadKey klen b)), .request (encode (.readSubkey e j))] s =
        .next (t, [0#52, (ks a (idx d i)).setWidth 52, 0x1000000000000#52, 0x2000000000000#52]))

/-- R82: the first READ_SUBKEY after a successful LOAD_KEY returns the new schedule and the first STATUS VALID = 1, from
every state and with nothing between. -/
def Obligations.LoadThenUseNeedsNoWait : Prop :=
  ∀ (s : State) (key : Key) (dir : Direction) (rnd : Fin 16),
    (∃ t, run [.request (encode (.loadKey 8 key)), .request (encode (.readSubkey dir rnd))] s =
      .next (t, [0#52, (ks key (idx dir rnd)).setWidth 52])) ∧
    (∃ t, run [.request (encode (.loadKey 8 key)), .request (encode .status)] s = .next (t, [0#52, 1#52]))

/-- R85, R86: every run from a readable state, so every run from reset, ends with exactly one response per request. Any
list of events from any state is a run by the model's choice, wider than R85's (log 12). -/
def Obligations.EveryRunAnswersEachRequestOnce : Prop :=
  ∀ (events : List PortEvent) (s : State), Readable s →
    ∃ t rs, run events s = .next (t, rs) ∧ rs.length = requestCount events ∧ Readable t

/-- The headline (R15 to R18, R33, R60 to R63, R69, R77): from reset, and from every state that holds a given key or
none, the block answers every list of events exactly as its history says, and ends holding exactly the key of the last
successful LOAD_KEY since the last failed one or reset. Any list of events from any state is
a run by the model's choice, wider than R85's (log 12). -/
def Obligations.EveryRunAnswersFromItsHistory : Prop :=
  ∀ (held : Option Key) (events : List PortEvent) (s : State), Holds held s →
    ∃ t, run events s = .next (t, answers held events) ∧ Holds (keyAfterAll held events) t ∧ t.port = s.port
end

