-- ==== Sys2Proof/Laws/Decode.lean ====
section
/-! SUPPORT. The fields of a packed request word, what each answer of the decoder says of the word, and the bound of
a decoded round. -/

namespace Sys2Proof

@[simp] theorem wellFormed_status : Instr.status.wellFormed = true := rfl

@[simp] theorem wellFormed_loadKey (klen : Nat) (key : Key) :
    (Instr.loadKey klen key).wellFormed = true ↔ klen ≤ 15 := by
  rw [Instr.wellFormed, decide_eq_true_iff, Config.maxKlen]

@[simp] theorem wellFormed_readSubkey (dir : Direction) (rnd : Nat) :
    (Instr.readSubkey dir rnd).wellFormed = true ↔ rnd ≤ 15 := by
  rw [Instr.wellFormed, decide_eq_true_iff, Config.maxRound]

section Fields

variable (opc klen : BitVec 4) (res : BitVec 3) (dir : BitVec 1) (rnd : BitVec 4) (key : Key)

/-- Bit n of a packed request, field by field. -/
theorem getLsbD_packRequest (n : Nat) :
    (packRequest opc klen res dir rnd key).getLsbD n =
      if n < 64 then key.getLsbD n
      else if n < 68 then rnd.getLsbD (n - 64)
      else if n < 69 then dir.getLsbD (n - 68)
      else if n < 72 then res.getLsbD (n - 69)
      else if n < 76 then klen.getLsbD (n - 72)
      else opc.getLsbD (n - 76) := by
  simp only [packRequest, BitVec.getLsbD_append]
  split_ifs <;> first | rfl | omega

theorem packRequest_opc : (packRequest opc klen res dir rnd key).opc = opc := by
  ext i hi
  simp only [Request.opc, BitVec.getElem_extractLsb', getLsbD_packRequest]
  interval_cases i <;> simp

theorem packRequest_klen : (packRequest opc klen res dir rnd key).klen = klen := by
  ext i hi
  simp only [Request.klen, BitVec.getElem_extractLsb', getLsbD_packRequest]
  interval_cases i <;> simp

theorem packRequest_dir : (packRequest opc klen res dir rnd key).dir = dir := by
  ext i hi
  simp only [Request.dir, BitVec.getElem_extractLsb', getLsbD_packRequest]
  interval_cases i
  simp

theorem packRequest_rnd : (packRequest opc klen res dir rnd key).rnd = rnd := by
  ext i hi
  simp only [Request.rnd, BitVec.getElem_extractLsb', getLsbD_packRequest]
  interval_cases i <;> simp

theorem packRequest_keydata : (packRequest opc klen res dir rnd key).keydata = key := by
  ext i hi
  simp [Request.keydata, getLsbD_packRequest, ← BitVec.getLsbD_eq_getElem, hi]

end Fields

theorem direction_ofBit_toBit (d : Direction) : Direction.ofBit d.toBit = d := by
  cases d <;> decide

theorem direction_toBit_ofBit (b : BitVec 1) : (Direction.ofBit b).toBit = b := by
  revert b; decide

/-- What each answer of the decoder says of the word (R39, R41, R59). -/
theorem decode_cases (r : Request) :
    (decode r = .command .status ∧ r.opc = 0x0#4 ∧ r.extractLsb' 0 76 = 0#76) ∨
    (decode r = .command (.loadKey r.klen.toNat r.keydata) ∧ r.opc = 0x1#4 ∧ r.extractLsb' 64 8 = 0#8) ∨
    (decode r = .command (.readSubkey (Direction.ofBit r.dir) r.rnd.toNat) ∧ r.opc = 0x2#4 ∧
      r.extractLsb' 69 7 = 0#7 ∧ r.extractLsb' 0 64 = 0#64) ∨
    (decode r = .rejected .mustBeZero ∧
      (r.opc = 0x0#4 ∧ r.extractLsb' 0 76 ≠ 0#76 ∨ r.opc = 0x1#4 ∧ r.extractLsb' 64 8 ≠ 0#8 ∨
        r.opc = 0x2#4 ∧ ¬(r.extractLsb' 69 7 = 0#7 ∧ r.extractLsb' 0 64 = 0#64))) ∨
    (decode r = .rejected .reservedOpcode ∧ r.opc ≠ 0x0#4 ∧ r.opc ≠ 0x1#4 ∧ r.opc ≠ 0x2#4) := by
  by_cases h0 : r.opc = 0x0#4
  · by_cases hz : r.extractLsb' 0 76 = 0#76 <;> simp [decode, h0, hz]
  · by_cases h1 : r.opc = 0x1#4
    · by_cases hz : r.extractLsb' 64 8 = 0#8 <;> simp [decode, h1, hz]
    · by_cases h2 : r.opc = 0x2#4
      · by_cases hz : r.extractLsb' 69 7 = 0#7 ∧ r.extractLsb' 0 64 = 0#64
        · exact .inr (.inr (.inl ⟨by simp [decode, h2, hz], h2, hz⟩))
        · exact .inr (.inr (.inr (.inl ⟨by simp only [decode, if_neg h0, if_neg h1, if_pos h2, if_neg hz], .inr (.inr ⟨h2, hz⟩)⟩)))
      · simp [decode, h0, h1, h2]

/-- A decoded round fits its field. -/
theorem decode_readSubkey_round {r : Request} {dir : Direction} {rnd : Nat}
    (h : decode r = .command (.readSubkey dir rnd)) : rnd < 16 := by
  obtain ⟨e, -⟩ | ⟨e, -⟩ | ⟨e, -⟩ | ⟨e, -⟩ | ⟨e, -⟩ := decode_cases r <;> rw [e] at h <;> cases h
  exact r.rnd.isLt

end Sys2Proof
end

