-- ==== Sys2Proof/Laws/Flags.lean ====
section
/-! SUPPORT. Response words: an OK response is its RDATA zero-extended, an error response is its code alone (R38, R65,
R69). -/

namespace Sys2Proof.Machine

theorem packResponse_ok (data : BitVec 48) : packResponse .ok data = data.setWidth 52 := by
  refine BitVec.eq_of_getLsbD_eq fun i hi => ?_
  simp only [packResponse, Status.code, BitVec.getLsbD_append, BitVec.getLsbD_setWidth]
  split_ifs with h
  · simp [hi]
  · simp [BitVec.getLsbD_of_ge data i (by omega)]

theorem packResponse_errKeyLength : packResponse .errKeyLength 0#48 = 0x1000000000000#52 := by decide

theorem packResponse_errNotKeyed : packResponse .errNotKeyed 0#48 = 0x2000000000000#52 := by decide

theorem packResponse_errIllegalCommand : packResponse .errIllegalCommand 0#48 = 0x3000000000000#52 := by decide

theorem responseStatus_packResponse (st : Status) (data : BitVec 48) :
    responseStatus (packResponse st data) = st.code := by
  refine BitVec.eq_of_getLsbD_eq fun i hi => ?_
  rw [responseStatus, BitVec.getLsbD_extractLsb', packResponse, BitVec.getLsbD_append]
  simp [hi]

theorem responseData_packResponse (st : Status) (data : BitVec 48) : responseData (packResponse st data) = data := by
  refine BitVec.eq_of_getLsbD_eq fun i hi => ?_
  rw [responseData, BitVec.getLsbD_extractLsb', packResponse, BitVec.getLsbD_append]
  simp only [hi, decide_true, Bool.true_and, Nat.zero_add, if_true]

end Sys2Proof.Machine
end

