-- ==== Sys2Proof/Laws/KeySchedule.lean ====
section
/-! SUPPORT. The bits of a selection, of a rotation and of a concatenation of halves, counted from the most
significant end. -/

namespace Sys2Proof.Machine

/-- Bit j (from 0 at the most significant end) of a selection is the source bit its table names. -/
theorem getMsbD_select {w : Nat} (v : BitVec w) (table : List Nat) (j : Nat) (h : j < table.length) :
    (select v table).getMsbD j = desBit v table[j] := by
  induction table generalizing j with
  | nil => simp at h
  | cons n rest ih =>
    cases j with
    | zero => simp [select, BitVec.getMsbD, BitVec.getElem_cons]
    | succ j =>
      have hj : j < rest.length := by simpa using h
      have := ih j hj
      simp only [BitVec.getMsbD, hj, decide_true, Bool.true_and] at this
      have hne : rest.length - 1 - j ≠ rest.length := by omega
      have heq : rest.length - (j + 1) = rest.length - 1 - j := by omega
      simp [select, BitVec.getMsbD, BitVec.getLsbD_cons, hj, hne, heq, this]

/-- A selection copies bits, so it commutes with exclusive or. -/
theorem select_xor_distrib {w : Nat} (a b : BitVec w) (table : List Nat) :
    select (a ^^^ b) table = select a table ^^^ select b table := by
  induction table with
  | nil => simp [select]
  | cons n rest ih =>
    ext i hi
    simp only [select, ih, BitVec.getElem_xor, BitVec.getElem_cons, desBit, BitVec.getLsbD_xor]
    split <;> rfl

theorem rotl28_zero_places (x : Half) : rotl28 x 0 = x := by
  have : x >>> 28 = 0#28 := BitVec.ushiftRight_eq_zero (le_refl 28)
  simp [rotl28, this]

theorem rotl28_xor_distrib (x y : Half) (n : Nat) : rotl28 (x ^^^ y) n = rotl28 x n ^^^ rotl28 y n := by
  by_cases h : n ≤ 28
  · ext i hi
    simp only [rotl28, BitVec.getElem_or, BitVec.getElem_shiftLeft, BitVec.getElem_ushiftRight, BitVec.getElem_xor,
      BitVec.getLsbD_xor]
    by_cases hn : i < n
    · simp [hn]
    · have : 28 ≤ 28 - n + i := by omega
      simp [hn, BitVec.getLsbD_of_ge _ _ this]
  · have : 28 ≤ n := by omega
    simp [rotl28, BitVec.shiftLeft_eq_zero this, Nat.sub_eq_zero_of_le this]

/-- The reverse direction is the forward direction on the mirrored round. -/
theorem idx_reverse_val (r : Fin 16) : (idx .reverse r).val = 15 - r.val := rfl

end Sys2Proof.Machine
end

