-- ==== Sys2Proof/Laws/State.lean ====
section
/-! SUPPORT. What each named operation leaves in each field of the state, one lemma per field. -/

namespace Sys2Proof.Machine

variable (s : State) (st : Status) (data : BitVec 48) (key : Key) (word : Request)

@[simp] theorem respond_key : (respond st data s).key = s.key := rfl
@[simp] theorem respond_sk : (respond st data s).sk = s.sk := rfl
@[simp] theorem respond_valid : (respond st data s).valid = s.valid := rfl
@[simp] theorem respond_rsp : (respond st data s).rsp = some (packResponse st data) := rfl
@[simp] theorem respond_port : (respond st data s).port = s.port := rfl

@[simp] theorem raise_key : (raise st s).key = s.key := rfl
@[simp] theorem raise_sk : (raise st s).sk = s.sk := rfl
@[simp] theorem raise_valid : (raise st s).valid = s.valid := rfl
@[simp] theorem raise_rsp : (raise st s).rsp = some (packResponse st 0#48) := rfl
@[simp] theorem raise_port : (raise st s).port = s.port := rfl

@[simp] theorem loadSchedule_key : (loadSchedule key s).key = some key := rfl
@[simp] theorem loadSchedule_sk : (loadSchedule key s).sk = (schedule key).map some := rfl
@[simp] theorem loadSchedule_valid : (loadSchedule key s).valid = 1#1 := rfl
@[simp] theorem loadSchedule_rsp : (loadSchedule key s).rsp = s.rsp := rfl
@[simp] theorem loadSchedule_port : (loadSchedule key s).port = s.port := rfl

@[simp] theorem invalidate_key : (invalidate s).key = none := rfl
@[simp] theorem invalidate_sk : (invalidate s).sk = Vector.replicate 16 none := rfl
@[simp] theorem invalidate_valid : (invalidate s).valid = 0#1 := rfl
@[simp] theorem invalidate_rsp : (invalidate s).rsp = s.rsp := rfl
@[simp] theorem invalidate_port : (invalidate s).port = s.port := rfl

@[simp] theorem assertReset_key : (assertReset s).key = none := rfl
@[simp] theorem assertReset_sk : (assertReset s).sk = Vector.replicate 16 none := rfl
@[simp] theorem assertReset_valid : (assertReset s).valid = 0#1 := rfl
@[simp] theorem assertReset_rsp : (assertReset s).rsp = none := rfl
@[simp] theorem assertReset_port : (assertReset s).port = s.port := rfl

@[simp] theorem presentRequest_port : (presentRequest word s).port = .request word :: s.port := rfl

@[simp] theorem readEntry_respond (i : Fin 16) : readEntry (respond st data s) i = readEntry s i := rfl
@[simp] theorem readEntry_raise (i : Fin 16) : readEntry (raise st s) i = readEntry s i := rfl

@[simp] theorem readEntry_loadSchedule (i : Fin 16) : readEntry (loadSchedule key s) i = some (ks key i) := by
  simp [readEntry, schedule]

@[simp] theorem readEntry_invalidate (i : Fin 16) : readEntry (invalidate s) i = none := by
  simp [readEntry]

@[simp] theorem readEntry_assertReset (i : Fin 16) : readEntry (assertReset s) i = none := by
  simp [readEntry]

/-- VALID is one bit: it is 1 exactly when it is not 0. -/
theorem valid_ne_zero (v : Flag) : v ≠ 0#1 ↔ v = 1#1 := by
  revert v; decide

end Sys2Proof.Machine
end

