-- ==== Sys2Proof/Laws/Ops.lean ====
section
/-! SUPPORT. Said once: everything a command, a request and a step can do. Proofs cite these and do not unfold the
meanings again. -/

namespace Sys2Proof.Machine

/-- LOAD_KEY of the accepted length. -/
theorem execLoadKey_accepted (key : Key) (s : State) :
    execLoadKey Config.keyBytes key s = .next (respond .ok 0#48 (loadSchedule key s)) := by
  simp [execLoadKey]

/-- LOAD_KEY of any other length. -/
theorem execLoadKey_rejected {klen : Nat} (h : klen ≠ Config.keyBytes) (key : Key) (s : State) :
    execLoadKey klen key s = .next (raise .errKeyLength (invalidate s)) := by
  simp [execLoadKey, h]

/-- READ_SUBKEY while not keyed. -/
theorem execReadSubkey_unkeyed {rnd : Nat} (h : rnd < 16) {s : State} (hv : s.valid = 0#1) (dir : Direction) :
    execReadSubkey dir rnd s = .next (raise .errNotKeyed s) := by
  simp [execReadSubkey, h, hv]

/-- READ_SUBKEY while keyed. -/
theorem execReadSubkey_keyed {rnd : Nat} (h : rnd < 16) {s : State} (hv : s.valid = 1#1) {dir : Direction}
    {subkey : Subkey} (he : readEntry s (idx dir ⟨rnd, h⟩) = some subkey) :
    execReadSubkey dir rnd s = .next (respond .ok subkey s) := by
  simp [execReadSubkey, h, hv, he]

/-- Everything a command does when it answers a next state. -/
theorem exec_cases {i : Instr} {s s' : State} (h : exec i s = .next s') :
    (i = .status ∧ s' = respond .ok (validData s.valid) s) ∨
    (∃ key, i = .loadKey Config.keyBytes key ∧ s' = respond .ok 0#48 (loadSchedule key s)) ∨
    (∃ klen key, i = .loadKey klen key ∧ klen ≠ Config.keyBytes ∧ s' = raise .errKeyLength (invalidate s)) ∨
    (∃ dir rnd, i = .readSubkey dir rnd ∧ rnd < 16 ∧ s.valid = 0#1 ∧ s' = raise .errNotKeyed s) ∨
    (∃ dir rnd subkey, ∃ hr : rnd < 16, i = .readSubkey dir rnd ∧ s.valid = 1#1 ∧
      readEntry s (idx dir ⟨rnd, hr⟩) = some subkey ∧ s' = respond .ok subkey s) := by
  cases i with
  | status =>
    simp only [exec, execStatus, Host.Outcome.next.injEq] at h
    exact .inl ⟨rfl, h.symm⟩
  | loadKey klen key =>
    by_cases hk : klen = Config.keyBytes
    · subst hk
      simp only [exec, execLoadKey_accepted, Host.Outcome.next.injEq] at h
      exact .inr (.inl ⟨key, rfl, h.symm⟩)
    · simp only [exec, execLoadKey_rejected hk, Host.Outcome.next.injEq] at h
      exact .inr (.inr (.inl ⟨klen, key, rfl, hk, h.symm⟩))
  | readSubkey dir rnd =>
    simp only [exec, execReadSubkey] at h
    split at h
    · next hr =>
      split at h
      · next hv =>
        cases h
        exact .inr (.inr (.inr (.inl ⟨dir, rnd, rfl, hr, hv, rfl⟩)))
      · next hv =>
        split at h
        · next subkey he =>
          cases h
          exact .inr (.inr (.inr (.inr ⟨dir, rnd, subkey, hr, rfl, (valid_ne_zero _).1 hv, he, rfl⟩)))
        · cases h
    · cases h

/-- Everything a request does when it answers a next state. -/
theorem serve_cases {word : Request} {s s' : State} (h : serve word s = .next s') :
    (∃ i, decode word = .command i ∧ exec i s = .next s') ∨
    (∃ why, decode word = .rejected why ∧ s' = raise .errIllegalCommand s) := by
  simp only [serve] at h
  split at h
  · next i hd => exact .inl ⟨i, hd, h⟩
  · next why hd =>
    simp only [execIllegal, Host.Outcome.next.injEq] at h
    exact .inr ⟨why, hd, h.symm⟩

/-- Everything a step does when it answers a next state. -/
theorem step_cases {s s' : State} (h : step s = .next s') :
    (∃ word rest, s.port = .request word :: rest ∧ serve word { s with port := rest } = .next s') ∨
    (∃ rest, s.port = .reset :: rest ∧ s' = assertReset { s with port := rest }) := by
  simp only [step, takeEvent] at h
  split at h
  · next e t ht =>
    split at ht
    · cases ht
    · next e' rest hp =>
      cases ht
      cases e with
      | request word => exact .inl ⟨word, rest, hp, h⟩
      | reset =>
        simp only [handleEvent, Host.Outcome.next.injEq] at h
        exact .inr ⟨rest, hp, h.symm⟩
  · cases h

end Sys2Proof.Machine
end

