-- ==== Sys2Proof/Laws/PerInstr.lean ====
section
/-! SUPPORT. What is said of every command as syntax: the word of a well-formed command lies under its own row of
opcode_table.json (R39). -/

namespace Sys2Proof.Laws.EncodeMatchesRow

/-- A well-formed command's word has its row's bits under its row's mask. -/
def Statement (i : Instr) : Prop := i.wellFormed = true → i.row.matchesWord (encode i)

theorem status : Statement .status := by
  intro _; simp only [OpcodeRow.matchesWord, Instr.row, encode]; decide

theorem loadKey (klen : Nat) (key : Key) : Statement (.loadKey klen key) := by
  intro _
  simp only [OpcodeRow.matchesWord, Instr.row, encode]
  refine BitVec.eq_of_getLsbD_eq fun n hn => ?_
  simp only [BitVec.getLsbD_and, getLsbD_packRequest]
  interval_cases n <;> simp

theorem readSubkey (dir : Direction) (rnd : Nat) : Statement (.readSubkey dir rnd) := by
  intro _
  simp only [OpcodeRow.matchesWord, Instr.row, encode]
  refine BitVec.eq_of_getLsbD_eq fun n hn => ?_
  simp only [BitVec.getLsbD_and, getLsbD_packRequest]
  interval_cases n <;> simp

end Sys2Proof.Laws.EncodeMatchesRow
end

