-- ==== Sys2Proof/Laws/Run.lean ====
section
/-! SUPPORT. What one event does, by its kind, and how a run of one more event is taken apart and put together. -/

namespace Sys2Proof.Machine

/-- A step takes the oldest event and handles it on the state without it. -/
theorem step_eq_handleEvent {s : State} {e : PortEvent} {rest : List PortEvent} (hp : s.port = e :: rest) :
    step s = handleEvent e { s with port := rest } := by
  simp only [step, takeEvent, hp]

/-- A successful LOAD_KEY leaves the loaded schedule. -/
theorem handleEvent_loadsKey {e : PortEvent} {key : Key} {s t : State} (he : e.loadsKey key)
    (h : handleEvent e s = .next t) : t = respond .ok 0#48 (loadSchedule key s) := by
  obtain ⟨word, rfl, hd⟩ := he
  simp only [handleEvent, serve, hd, exec, execLoadKey_accepted, Host.Outcome.next.injEq] at h
  exact h.symm

/-- A reset or a failed LOAD_KEY leaves no key. -/
theorem handleEvent_dropsKey {e : PortEvent} {s t : State} (he : e.dropsKey) (h : handleEvent e s = .next t) :
    Unkeyed t ∧ t.port = s.port := by
  obtain rfl | ⟨word, klen, key, rfl, hd, hk⟩ := he
  · cases h
    exact ⟨⟨rfl, rfl, readEntry_assertReset s⟩, rfl⟩
  · simp only [handleEvent, serve, hd, exec, execLoadKey_rejected hk, Host.Outcome.next.injEq] at h
    subst h
    exact ⟨⟨rfl, rfl, by simp⟩, rfl⟩

/-- Any other event changes nothing but RSP. -/
theorem handleEvent_keepsKey {e : PortEvent} {s t : State} (he : e.keepsKey = true) (h : handleEvent e s = .next t) :
    t = { s with rsp := t.rsp } := by
  cases e with
  | reset => cases he
  | request word =>
    obtain ⟨i, hd, hi⟩ | ⟨why, -, rfl⟩ := serve_cases h
    · simp only [PortEvent.keepsKey, hd] at he
      obtain ⟨-, rfl⟩ | ⟨key, rfl, -⟩ | ⟨klen, key, rfl, -⟩ | ⟨dir, rnd, -, -, -, rfl⟩ |
        ⟨dir, rnd, subkey, hr, -, -, -, rfl⟩ := exec_cases hi
      · rfl
      · cases he
      · cases he
      · rfl
      · rfl
    · rfl

/-- A run of one more event, put together. -/
theorem run_cons_of_next {e : PortEvent} {rest : List PortEvent} {s s' t : State} {later : List Response}
    (he : handleEvent e s = .next s') (hr : run rest s' = .next (t, later)) :
    run (e :: rest) s = .next (t, responsesOf e s' ++ later) := by
  simp only [run] at hr
  simp only [run, runWith, he, hr]

/-- A run of one more event, taken apart. -/
theorem run_cons_cases {e : PortEvent} {rest : List PortEvent} {s t : State} {responses : List Response}
    (h : run (e :: rest) s = .next (t, responses)) :
    ∃ s' later, handleEvent e s = .next s' ∧ run rest s' = .next (t, later) ∧
      responses = responsesOf e s' ++ later := by
  simp only [run, runWith] at h
  split at h
  · next s' hs =>
    split at h
    · next t' later hl =>
      cases h
      exact ⟨s', later, hs, hl, rfl⟩
    · cases h
    · cases h
  · cases h
  · cases h

end Sys2Proof.Machine
end

