-- ==== Sys2Proof/Tests/Slice0.lean ====
section
/-! SUPPORT. The model's own tests. Expected values are the spec's: words written out from the encodings of
30_encoding.md, and the vectors of 95_test_vectors.md (named V1 to V57 there). The witnesses at the end show, for each
statement with hypotheses, a concrete case that meets them. -/

namespace Sys2Proof.Tests

open Sys2Proof.Machine

/-! ### Helpers -/

/-- The state of an outcome, if it is a next state. -/
def nextOf (o : Host.Outcome State Fault Refusal) : Option State :=
  match o with
  | .next s => some s
  | .fault _ => none
  | .refused _ => none

/-- The response a request gets from a state. -/
def reply (word : Request) (s : State) : Option Response := (nextOf (serve word s)).bind State.rsp

/-- The key of the spec's vectors. -/
def refKey : Key := 0x133457799BBCDFF1#64

/-- "keyed 0x133457799BBCDFF1" of section 2.7. -/
def keyed : State := respond .ok 0#48 (loadSchedule refKey State.reset)

/-- VALID is 1 and nothing is stored: no run reaches it. -/
def hollow : State := { State.reset with valid := 1#1 }

/-- `load_key 8, 0x133457799BBCDFF1` (R43). -/
def loadWord : Request := 0x1800133457799BBCDFF1#80

/-- `load_key 7, 0x133457799BBCDFF1` (V16). -/
def badLoadWord : Request := 0x1700133457799BBCDFF1#80

/-- `read_subkey dec, 15` (V33). -/
def readWord : Request := 0x201F0000000000000000#80

theorem keyed_keyedWith : KeyedWith refKey keyed := ⟨rfl, rfl, by simp [keyed]⟩

theorem keyed_readable : Readable keyed := fun _ i => by simp [keyed]

theorem reset_holds_none : Holds none State.reset := ⟨rfl, rfl, by simp [readEntry, State.reset]⟩

/-! ### Well-formedness: one ill-formed term for each check (R40, R44) -/

theorem test_wellFormed_refuses_klen_16 : (Instr.loadKey 16 refKey).wellFormed = false := by decide

theorem test_wellFormed_refuses_round_16 : (Instr.readSubkey .forward 16).wellFormed = false := by decide

theorem test_wellFormed_accepts_the_bounds :
    Instr.status.wellFormed = true ∧ (Instr.loadKey 15 refKey).wellFormed = true ∧
      (Instr.readSubkey .reverse 15).wellFormed = true := by decide

/-! ### Decoding: words written out field by field, OPC KLEN RES DIR RND KEYDATA (R37) -/

theorem test_decode_status : decode (0b0000#4 ++ 0b0000#4 ++ 0b000#3 ++ 0b0#1 ++ 0b0000#4 ++ 0x0000000000000000#64) =
    .command .status := by decide

theorem test_decode_loadKey : decode (0b0001#4 ++ 0b1000#4 ++ 0b000#3 ++ 0b0#1 ++ 0b0000#4 ++ 0x133457799BBCDFF1#64) =
    .command (.loadKey 8 refKey) := by decide

theorem test_decode_readSubkey :
    decode (0b0010#4 ++ 0b0000#4 ++ 0b000#3 ++ 0b1#1 ++ 0b0111#4 ++ 0x0000000000000000#64) =
      .command (.readSubkey .reverse 7) := by decide

/-- Each reserved bit of a READ_SUBKEY, RES (V38, V39) and KEYDATA (V40, V41), and a reserved opcode (V43). -/
theorem test_decode_rejects :
    decode 0x20200000000000000000#80 = .rejected .mustBeZero ∧ decode 0x20800000000000000000#80 = .rejected .mustBeZero ∧
      decode 0x20000000000000000001#80 = .rejected .mustBeZero ∧ decode 0x20008000000000000000#80 = .rejected .mustBeZero ∧
      decode 0x30000000000000000000#80 = .rejected .reservedOpcode := by decide

/-- The words of R43 and of program 1, assembled and encoded. -/
theorem test_encode_and_assemble :
    encode (.loadKey 8 refKey) = 0x1800133457799BBCDFF1#80 ∧ encode (.readSubkey .reverse 3) = 0x20130000000000000000#80 ∧
      assemble (.key 0x133457799BBCDFF1) = some 0x1800133457799BBCDFF1#80 ∧
      assemble (.rkD 15) = some 0x201F0000000000000000#80 ∧ assemble (.rkE 16) = none ∧
      assemble (.loadKey 15 0xFFFFFFFFFFFFFFFF) = some 0x1F00FFFFFFFFFFFFFFFF#80 := by decide

/-- The table's numbering of a row's bits: bit 0 is REQ[0]. -/
theorem test_decodeTableWord :
    decodeTableWord 80 0x1800133457799BBCDFF1 = some (.loadKey 8 refKey) ∧
      decodeTableWord 80 0x30000000000000000000 = none := by decide

/-! ### The key schedule (95_test_vectors.md sections 2.1 to 2.4) -/

theorem test_pc1_halves : pc1Select refKey = 0xF0CCAAF556678F#56 ∧ halfC refKey = 0xF0CCAAF#28 ∧ halfD refKey = 0x556678F#28 := by
  decide +kernel

theorem test_schedule_of_the_reference_key : schedule refKey =
    #v[0x1B02EFFC7072#48, 0x79AED9DBC9E5#48, 0x55FC8A42CF99#48, 0x72ADD6DB351D#48, 0x7CEC07EB53A8#48, 0x63A53E507B2F#48,
      0xEC84B7F618BC#48, 0xF78A3AC13BFB#48, 0xE0DBEBEDE781#48, 0xB1F347BA464F#48, 0x215FD3DED386#48, 0x7571F59467E9#48,
      0x97C5D1FABA41#48, 0x5F43B7F2E73A#48, 0xBF918D3D3F0A#48, 0xCB3D8B0E17F5#48] := by
  decide +kernel

/-- Single key bits 1 and 63 in the first and last subkeys, and a weak key (section 2.3). -/
theorem test_corner_keys :
    ks 0x8000000000000000#64 0 = 0x000010000000#48 ∧ ks 0x8000000000000000#64 15 = 0x000040000000#48 ∧
      ks 0x0000000000000002#64 0 = 0x000000000100#48 ∧ ks 0x1F1F1F1F0E0E0E0E#64 3 = 0x000000FFFFFF#48 := by
  decide +kernel

/-- The map of copied bits computed from the tables is the printed one (first, ninth and last row). -/
theorem test_sourceBit : ∀ j : Fin 48, sourceBit 0 (j + 1) = sourceTable 0 (j + 1) ∧
    sourceBit 8 (j + 1) = sourceTable 8 (j + 1) ∧ sourceBit 15 (j + 1) = sourceTable 15 (j + 1) := by
  decide +kernel

/-! ### Commands, one step each -/

/-- V1, V2: STATUS after reset and when keyed. -/
theorem test_status : reply 0x00000000000000000000#80 State.reset = some 0x0000000000000#52 ∧
    reply 0x00000000000000000000#80 keyed = some 0x0000000000001#52 := by decide

/-- V17, V18 and the example of R61: accepted keys. -/
theorem test_loadKey_accepts : reply loadWord State.reset = some 0x0000000000000#52 ∧
    (nextOf (serve loadWord State.reset)).map State.valid = some 1#1 ∧
    (nextOf (serve loadWord State.reset)).map State.key = some (some refKey) := by decide

/-- V11, V15: a wrong length while keyed destroys the schedule. -/
theorem test_loadKey_of_wrong_length_destroys :
    nextOf (serve 0x1000133457799BBCDFF1#80 keyed) = some { State.reset with rsp := some 0x1000000000000#52 } ∧
      nextOf (serve 0x1F00133457799BBCDFF1#80 keyed) = some { State.reset with rsp := some 0x1000000000000#52 } := by
  decide

/-- V27, V32: READ_SUBKEY forward and reverse. -/
theorem test_readSubkey_both_directions :
    reply 0x20010000000000000000#80 keyed = some 0x079AED9DBC9E5#52 ∧
      reply 0x201E0000000000000000#80 keyed = some 0x079AED9DBC9E5#52 := by decide +kernel

/-- V34, V42: READ_SUBKEY after reset, and the decode check before it. -/
theorem test_readSubkey_unkeyed : reply 0x20000000000000000000#80 State.reset = some 0x2000000000000#52 ∧
    reply 0x20000000000000000001#80 State.reset = some 0x3000000000000#52 := by decide

/-- V19, V57: a refused word keeps the key. -/
theorem test_illegal_keeps_the_key :
    nextOf (serve 0x18200123456789ABCDEF#80 keyed) = some { keyed with rsp := some 0x3000000000000#52 } ∧
      nextOf (serve 0xFFFFFFFFFFFFFFFFFFFF#80 keyed) = some { keyed with rsp := some 0x3000000000000#52 } := by
  exact ⟨rfl, rfl⟩

/-- The first instruction after reset, stored where the step takes it, runs. -/
theorem test_withFetchWord_runs_from_reset :
    (nextOf (step (State.reset.withFetchWord 80 0x1800133457799BBCDFF1))).map State.key = some (some refKey) := by decide

/-- R77: reset of a keyed block; the host's later events stay. -/
theorem test_reset_of_a_keyed_block :
    nextOf (step { keyed with port := [.reset, .request 0#80] }) = some { State.reset with port := [.request 0#80] } := by
  decide

/-! ### Witnesses: each statement with hypotheses, a case that meets them, at the bounds of each clause -/

theorem witness_DecodeOfEncodeIsTheCommand :
    Instr.status.wellFormed = true ∧ (Instr.loadKey 15 refKey).wellFormed = true ∧
      (Instr.readSubkey .reverse 15).wellFormed = true := by decide

theorem witness_DecodedCommandEncodesToItsWord :
    decode 0#80 = .command .status ∧ decode loadWord = .command (.loadKey 8 refKey) ∧
      decode readWord = .command (.readSubkey .reverse 15) := by decide

theorem witness_DecodeFollowsTheOpcodeMap :
    3 ≤ ((0x30000000000000000000#80).extractLsb' 76 4).toNat ∧ 3 ≤ ((0xF0000000000000000000#80).extractLsb' 76 4).toNat ∧
      decode 0x00000000000000000001#80 = .rejected .mustBeZero := by decide

theorem witness_OperandsAreTheirFields :
    decode 0x1F00FFFFFFFFFFFFFFFF#80 = .command (.loadKey 15 0xFFFFFFFFFFFFFFFF#64) ∧
      decode 0x200F0000000000000000#80 = .command (.readSubkey .forward 15) ∧ (7 : Nat) ≠ 8 ∧ (9 : Nat) ≠ 8 := by decide

theorem witness_RefusedWordsChangeOnlyTheResponse :
    3 ≤ ((0x30000000000000000000#80).extractLsb' 76 4).toNat ∧
      ((0x08000000000000000000#80).extractLsb' 76 4 = 0x0#4 ∧ (0x08000000000000000000#80).extractLsb' 0 76 ≠ 0#76) ∧
      ((0x18010000000000000000#80).extractLsb' 76 4 = 0x1#4 ∧ (0x18010000000000000000#80).extractLsb' 64 8 ≠ 0#8) ∧
      ((0x20200000000000000000#80).extractLsb' 76 4 = 0x2#4 ∧ (0x20200000000000000000#80).extractLsb' 69 7 ≠ 0#7) ∧
      ((0x20000000000000000001#80).extractLsb' 76 4 = 0x2#4 ∧ (0x20000000000000000001#80).extractLsb' 0 64 ≠ 0#64) := by
  decide

theorem witness_AssembledWordIsItsFieldsAsANumber :
    assemble (.loadKey 15 0xFFFFFFFFFFFFFFFF) ≠ none ∧ assemble (.loadKey 16 0) = none ∧
      assemble (.loadKey 8 0x10000000000000000) = none ∧ assemble (.readSubkey .forward 15) ≠ none ∧
      assemble (.readSubkey .reverse 16) = none := by decide

theorem witness_PseudoInstructionsDoWhatTheySay :
    KeyedWith refKey keyed ∧ assemble (.loadKey 8 refKey.toNat) = some loadWord ∧
      assemble (.loadKey 15 refKey.toNat) = some 0x1F00133457799BBCDFF1#80 ∧
      assemble (.rkE 15) = some 0x200F0000000000000000#80 ∧ assemble (.rkD 15) = some readWord ∧
      (0 : Fin 16).val = 15 - (15 : Fin 16).val :=
  ⟨keyed_keyedWith, by decide, by decide, by decide, by decide, by decide⟩

theorem witness_SelectTakesTheNamedBits : 1 ≤ 1 ∧ 1 ≤ pc2.length ∧ 1 ≤ 48 ∧ 48 ≤ pc2.length := by decide

theorem witness_RotationMovesEachBit : 0 ≤ 28 ∧ 28 ≤ 28 ∧ (1 ≤ 1 ∧ 1 < 28) ∧ (1 ≤ 27 ∧ 27 < 28) ∧ (1 ≤ 28 ∧ 28 ≤ 28) := by
  decide

theorem witness_Pc1SelectsTheKeyBits : (1 ≤ 1 ∧ 1 ≤ 56) ∧ (1 ≤ 56 ∧ 56 ≤ 56) := by decide

theorem witness_HalvesSplitThePc1Output : (1 ≤ 1 ∧ 1 ≤ 28) ∧ (1 ≤ 28 ∧ 28 ≤ 28) := by decide

theorem witness_SteppedRotationIsTheCumulativeOne : cum 15 ≤ 28 ∧ shift 15 ≤ 28 := by decide

theorem witness_Pc2SelectsFromBothHalves : (1 ≤ 1 ∧ 1 ≤ 48) ∧ (1 ≤ 48 ∧ 48 ≤ 48) := by decide

theorem witness_DecryptionSweepIsTheEncryptionSweepReversed :
    KeyedWith refKey keyed ∧ (15 : Fin 16).val = 15 - (0 : Fin 16).val := ⟨keyed_keyedWith, by decide⟩

theorem witness_ParityBitsAreIgnored : 0x0101010101010101#64 &&& 0xFEFEFEFEFEFEFEFE#64 = 0#64 := by decide

theorem witness_KsCopiesTheBitsOfTheSourceTable : (1 ≤ 1 ∧ 1 ≤ 48) ∧ (1 ≤ 48 ∧ 48 ≤ 48) := by decide

/-- A mask on position 9 alone; and a weak key's halves. -/
theorem witness_WeakKeysGiveEqualSubkeys :
    (∀ p, p ∉ [9, 18, 22, 25, 35, 38, 43, 54] → desBit (0x00800000000000#56 : CD) p = false) ∧
      halfC 0x1F1F1F1F0E0E0E0E#64 = 0#28 ∧ halfD 0x1F1F1F1F0E0E0E0E#64 = 0xFFFFFFF#28 := by
  refine ⟨fun p hp => ?_, by decide +kernel, by decide +kernel⟩
  have small : ∀ q : Fin 57, q.val ∉ [9, 18, 22, 25, 35, 38, 43, 54] → desBit (0x00800000000000#56 : CD) q = false := by
    decide
  by_cases h : p ≤ 56
  · exact small ⟨p, by omega⟩ hp
  · simp [desBit, Nat.sub_eq_zero_of_le (by omega : 56 ≤ p)]

theorem witness_KeyBytesAreBigEndian : 7 < 8 ∧ (1 ≤ 1 ∧ 1 ≤ 8) ∧ (1 ≤ 8 ∧ 8 ≤ 8) ∧ (15 : Nat) ≤ 15 := by decide

theorem witness_SubkeyBitsAreInResponseOrder : KeyedWith refKey keyed ∧ (1 ≤ 48 ∧ 48 ≤ 48) ∧ (1 ≤ 8 ∧ 8 ≤ 8) ∧ (1 ≤ 6 ∧ 6 ≤ 6) :=
  ⟨keyed_keyedWith, by decide⟩

theorem witness_StepRunsTheDecodedCommand :
    ({ keyed with port := [.request readWord, .reset] } : State).port = .request readWord :: [.reset] ∧
      decode readWord = .command (.readSubkey .reverse 15) ∧
      ({ keyed with port := [.request 1#80] } : State).port = .request 1#80 :: [] ∧ decode 1#80 = .rejected .mustBeZero :=
  ⟨rfl, by decide, rfl, by decide⟩

theorem witness_PresentedWordIsTheNextCommand : (Instr.readSubkey .reverse 15).wellFormed = true := by decide

theorem witness_RequestReachesExactlyOneArm : (∃ t, serve readWord State.reset = .next t) ∧
    ∃ t, serve 0xFFFFFFFFFFFFFFFFFFFF#80 keyed = .next t := ⟨⟨_, rfl⟩, ⟨_, rfl⟩⟩

theorem witness_StepNeedsAnEventOnThePort : State.reset.port = [] ∧ step State.reset = .refused .noRequest := ⟨rfl, rfl⟩

theorem witness_StatusReportsValid :
    ((0x08000000000000000000#80).extractLsb' 76 4 = 0x0#4 ∧ 0x08000000000000000000#80 ≠ 0#80) ∧
      (∃ t r, exec .status keyed = .next t ∧ t.rsp = some r) ∧
      (∃ t u, exec (.loadKey 8 refKey) State.reset = .next t ∧ exec .status t = .next u) :=
  ⟨by decide, ⟨_, _, rfl, rfl⟩, ⟨_, _, rfl, rfl⟩⟩

theorem witness_LoadKeyReplacesTheWholeSchedule :
    ((0 : Nat) ≤ 15 ∧ (0 : Nat) ≠ 8) ∧ ((15 : Nat) ≤ 15 ∧ (15 : Nat) ≠ 8) ∧ loadWord.extractLsb' 76 4 = 0x1#4 ∧
      (∃ t u, exec (.loadKey 8 refKey) keyed = .next t ∧ exec (.loadKey 8 refKey) t = .next u) ∧
      (∃ t, exec (.loadKey 9 refKey) keyed = .next t) :=
  ⟨by decide, by decide, by decide, ⟨_, _, rfl, rfl⟩, ⟨_, rfl⟩⟩

theorem witness_ReadSubkeyReturnsTheEntry :
    (keyed.valid = 1#1 ∧ readEntry keyed (idx .reverse 15) = some (ks refKey 0)) ∧ State.reset.valid = 0#1 ∧
      readWord.extractLsb' 76 4 = 0x2#4 ∧ (15 : Fin 16).val = 15 - (0 : Fin 16).val ∧
      (∃ t u rs, (∀ e ∈ [PortEvent.request 0#80], e.keepsKey = true) ∧ exec (.readSubkey .reverse 0) State.reset = .next t ∧
        run [.request 0#80] t = .next (u, rs)) ∧
      (∃ t, exec (.loadKey 8 0x133457799BBCDFF1#64) State.reset = .next t) :=
  ⟨⟨rfl, by simp [keyed]; rfl⟩, rfl, by decide, by decide, ⟨_, _, _, by decide, rfl, rfl⟩, ⟨_, rfl⟩⟩

theorem witness_EveryCommandCompletes : (Instr.readSubkey .reverse 15).wellFormed = true ∧ Readable keyed ∧ Readable State.reset :=
  ⟨by decide, keyed_readable, fun h => absurd h (by decide)⟩

theorem witness_OnlyLoadKeyWritesKeySkAndValid :
    (∃ t, exec .status keyed = .next t) ∧ ∀ klen key, Instr.status ≠ .loadKey klen key := ⟨⟨_, rfl⟩, by simp⟩

theorem witness_KeyIsWrittenByLoadKeyAndNeverReadBack :
    (∃ t, step { State.reset with port := [.request loadWord] } = .next t) ∧ (PortEvent.request loadWord).loadsKey refKey ∧
      (∃ t, step { keyed with port := [.reset] } = .next t) ∧ PortEvent.reset.dropsKey ∧
      (PortEvent.request badLoadWord).dropsKey ∧ (PortEvent.request 0#80).keepsKey = true ∧
      (∃ t rs, run [.request loadWord, .reset] State.reset = .next (t, rs)) ∧ (∃ t, serve 0#80 keyed = .next t) :=
  ⟨⟨_, rfl⟩, ⟨_, rfl, by decide⟩, ⟨_, rfl⟩, .inl rfl, .inr ⟨_, 7, refKey, rfl, by decide, by decide⟩, by decide,
    ⟨_, _, rfl⟩, ⟨_, rfl⟩⟩

theorem witness_ValidFollowsTheLastLoad :
    (PortEvent.request loadWord).loadsKey refKey ∧ (PortEvent.request badLoadWord).dropsKey ∧
      (PortEvent.request 0#80).keepsKey = true ∧ (∃ t, step { keyed with port := [.request badLoadWord] } = .next t) ∧
      (∃ t rs, run [.request loadWord] State.reset = .next (t, rs) ∧ t.valid = 1#1) ∧
      (∃ t rs, run [.request badLoadWord] State.reset = .next (t, rs) ∧ t.valid = 0#1) :=
  ⟨⟨_, rfl, by decide⟩, .inr ⟨_, 7, refKey, rfl, by decide, by decide⟩, by decide, ⟨_, rfl⟩, ⟨_, _, rfl, rfl⟩, ⟨_, _, rfl, rfl⟩⟩

theorem witness_StepKeepsScheduleMatchingKey :
    ScheduleMatchesKey { keyed with port := [.request readWord] } ∧ State.reset.valid = 0#1 ∧
      (∃ t, step { keyed with port := [.request 0#80] } = .next t) ∧ (∃ t, serve readWord State.reset = .next t) :=
  ⟨fun _ => ⟨refKey, rfl, keyed_keyedWith.2.2⟩, rfl, ⟨_, rfl⟩, ⟨_, rfl⟩⟩

theorem witness_StepKeepsCoherence :
    Coherent { keyed with port := [.request badLoadWord] } ∧
      ∃ t, step { keyed with port := [.request badLoadWord] } = .next t :=
  ⟨⟨some refKey, keyed_keyedWith⟩, ⟨_, rfl⟩⟩

theorem witness_ReadsNeverMutateTheSchedule :
    (∀ e ∈ [PortEvent.request 0#80, .request 1#80], e.keepsKey = true) ∧
      (∃ t rs, run [.request 0#80, .request 1#80] keyed = .next (t, rs)) ∧ KeyedWith refKey keyed ∧
      (0 : Fin 16).val = 15 - (15 : Fin 16).val :=
  ⟨by decide, ⟨_, _, rfl⟩, keyed_keyedWith, by decide⟩

theorem witness_NoCommandReadsTheResponseRegister : ∃ t, serve 1#80 keyed = .next t := ⟨_, rfl⟩

theorem witness_StoringTheScheduleCannotBeObserved : Coherent keyed ∧ Coherent State.reset :=
  ⟨⟨some refKey, keyed_keyedWith⟩, ⟨none, reset_holds_none⟩⟩

theorem witness_RepeatedRequestGivesTheSameResponse :
    (PortEvent.request readWord).keepsKey = true ∧ (∀ e ∈ [PortEvent.request 0#80], e.keepsKey = true) ∧
      (∃ t rs s' t', run [.request 0#80] State.reset = .next (t, rs) ∧ serve readWord State.reset = .next s' ∧
        serve readWord t = .next t') :=
  ⟨by decide, by decide, ⟨_, _, _, _, rfl, rfl, rfl⟩⟩

theorem witness_RunsComposeInIssueOrder :
    (∃ t rs u us, run [.request loadWord] State.reset = .next (t, rs) ∧ run [.reset, .request 0#80] t = .next (u, us)) ∧
      (∃ t rs, run [.request loadWord] { State.reset with port := [.reset] } = .next (t, rs)) :=
  ⟨⟨_, _, _, _, rfl, rfl⟩, ⟨_, _, rfl⟩⟩

theorem witness_StatusCodesAreRaisedExactlyWhenStated :
    (∃ t, serve badLoadWord keyed = .next t) ∧ (∃ t, serve readWord State.reset = .next t) ∧ (∃ t, serve 1#80 keyed = .next t) :=
  ⟨⟨_, rfl⟩, ⟨_, rfl⟩, ⟨_, rfl⟩⟩

theorem witness_NotKeyedIsRaisedExactlyWhenUnkeyed :
    State.reset.valid = 0#1 ∧ (∃ t, serve readWord State.reset = .next t) ∧
      (∃ t rs, run [.request loadWord, .request badLoadWord] State.reset = .next (t, rs)) :=
  ⟨rfl, ⟨_, rfl⟩, ⟨_, _, rfl⟩⟩

theorem witness_ErrorsHaveTheirStatedEffect :
    (∃ t, serve badLoadWord keyed = .next t ∧ t.rsp = some 0x1000000000000#52) ∧
      (∃ t, serve readWord State.reset = .next t ∧ t.rsp = some 0x2000000000000#52) ∧
      (∃ t, serve 1#80 keyed = .next t ∧ t.rsp = some 0x3000000000000#52) ∧ State.reset.valid = 0#1 :=
  ⟨⟨_, rfl, rfl⟩, ⟨_, rfl, rfl⟩, ⟨_, rfl, rfl⟩, rfl⟩

theorem witness_DecodeCheckComesFirst :
    decode 0x17200000000000000000#80 = .rejected .mustBeZero ∧ decode 0x20000000000000000001#80 = .rejected .mustBeZero ∧
      decode badLoadWord = .command (.loadKey 7 refKey) ∧ decode readWord = .command (.readSubkey .reverse 15) ∧
      (∃ t, serve readWord State.reset = .next t) := ⟨by decide, by decide, by decide, by decide, ⟨_, rfl⟩⟩

theorem witness_RoundAboveFifteenFaults : 15 < 16 ∧ 15 ≤ 15 ∧ 57 ∈ pc1 ∧ 14 ∈ pc2 := by decide

theorem witness_ReadOfNoneFaults :
    hollow.valid = 1#1 ∧ readEntry hollow (idx .reverse 15) = none ∧ Coherent keyed :=
  ⟨rfl, rfl, ⟨some refKey, keyed_keyedWith⟩⟩

theorem witness_StepNeverFaultsFromReadableStates :
    Readable { keyed with port := [.request 0#80] } ∧ (∃ t, step { keyed with port := [.request 0#80] } = .next t) ∧
      Readable keyed ∧ step keyed = .refused .noRequest :=
  ⟨fun _ i => keyed_readable rfl i, ⟨_, rfl⟩, keyed_readable, rfl⟩

theorem witness_UnkeyedContentsCannotBeObserved :
    State.reset.valid = 0#1 ∧ ({ keyed with valid := 0#1 } : State).valid = 0#1 := ⟨rfl, rfl⟩

theorem witness_ResetSetsEveryRegister : ({ keyed with port := [.reset, .request 0#80] } : State).port = .reset :: [.request 0#80] :=
  rfl

theorem witness_ResetForgetsEverythingBefore : Readable keyed := keyed_readable

theorem witness_ReadSucceedsOnlyAfterALoad :
    (∀ e ∈ [PortEvent.request badLoadWord, .reset], ∀ key, ¬ e.loadsKey key) ∧
      (∀ e ∈ [PortEvent.request 0#80, .request readWord], e.keepsKey = true) := by
  refine ⟨?_, by decide⟩
  simp only [List.mem_cons, List.not_mem_nil, or_false, PortEvent.loadsKey]
  rintro e (rfl | rfl) key ⟨word, h, hd⟩
  · cases h
    have : decode badLoadWord = .command (.loadKey 7 refKey) := by decide
    rw [this] at hd
    simp [Config.keyBytes] at hd
  · cases h

theorem witness_EachReadUsesTheCurrentKey : (0 : Nat) ≤ 15 ∧ (0 : Nat) ≠ 8 ∧ (15 : Nat) ≤ 15 ∧ (15 : Nat) ≠ 8 := by decide

theorem witness_EveryRunAnswersEachRequestOnce : Readable keyed ∧ Readable State.reset :=
  ⟨keyed_readable, fun h => absurd h (by decide)⟩

theorem witness_EveryRunAnswersFromItsHistory : Holds (some refKey) keyed ∧ Holds none State.reset :=
  ⟨keyed_keyedWith, reset_holds_none⟩

end Sys2Proof.Tests
end

namespace Sys2Proof.Machine

/-! ### DES numbering, selection and rotation (00_scope.md R10, R11) -/

/-- DES numbering starts at 1 where the library's count from the most significant end starts at 0 (R10). -/
theorem desBit_eq_getMsbD {w : Nat} (v : BitVec w) {j : Nat} (h1 : 1 ≤ j) (hw : j ≤ w) :
    desBit v j = v.getMsbD (j - 1) := by
  have hlt : j - 1 < w := by omega
  have hpos : w - 1 - (j - 1) = w - j := by omega
  simp [desBit, BitVec.getMsbD_eq_getLsbD, hlt, hpos]

/-- R10: DES bit j of a selection is the source's DES bit that entry j of the table names. -/
theorem desBit_select {w : Nat} (v : BitVec w) (table : List Nat) {j : Nat} (h1 : 1 ≤ j) (hj : j ≤ table.length) :
    desBit (select v table) j = desBit v (table.getD (j - 1) 0) := by
  have hlt : j - 1 < table.length := by omega
  rw [desBit_eq_getMsbD _ h1 hj, getMsbD_select v table _ hlt, List.getD_eq_getElem table 0 hlt]

theorem rotl28_all_places (x : Half) : rotl28 x 28 = x := by
  have : x <<< 28 = 0#28 := BitVec.shiftLeft_eq_zero (le_refl 28)
  simp [rotl28, this]

/-- R11's rotation is the library's, which takes the number of places modulo 28. -/
theorem rotl28_eq_rotateLeft (x : Half) {n : Nat} (h : n ≤ 28) : rotl28 x n = x.rotateLeft n := by
  obtain hlt | rfl := h.lt_or_eq
  · rw [BitVec.rotateLeft_eq_rotateLeftAux_of_lt hlt, rotl28, BitVec.rotateLeftAux]
  · rw [rotl28_all_places, ← BitVec.rotateLeft_mod_eq_rotateLeft, BitVec.rotateLeft_eq_rotateLeftAux_of_lt (by decide)]
    exact (rotl28_zero_places x).symm

/-- R11: DES bit j of a rotation by n places is the DES bit n places further on, counted round from 28 to 1. -/
theorem desBit_rotl28 (x : Half) {n j : Nat} (hn : n ≤ 28) (h1 : 1 ≤ j) (hj : j ≤ 28) :
    desBit (rotl28 x n) j = desBit x ((j - 1 + n) % 28 + 1) := by
  have hlt : j - 1 < 28 := by omega
  have hsrc : (j - 1 + n) % 28 < 28 := Nat.mod_lt _ (by decide)
  rw [desBit_eq_getMsbD _ h1 hj, desBit_eq_getMsbD _ (Nat.le_add_left 1 _) hsrc, rotl28_eq_rotateLeft x hn,
    BitVec.getMsbD_rotateLeft, Nat.add_sub_cancel, Nat.add_comm n]
  simp [hlt]

/-- R11 shifts a value wide enough to lose no bit and keeps bits 27 to 0; the 28-bit shifts give the same. -/
theorem rotl28_eq_extractLsb'_of_wide (x : Half) (n : Nat) :
    rotl28 x n = ((x.setWidth 56 <<< n) ||| (x.setWidth 56 >>> (28 - n))).extractLsb' 0 28 := by
  rw [← BitVec.setWidth_eq_extractLsb' (by decide), BitVec.setWidth_or, BitVec.setWidth_shiftLeft_of_le (by decide),
    ← BitVec.setWidth_ushiftRight (by decide), BitVec.setWidth_setWidth_of_le _ (by decide),
    BitVec.setWidth_setWidth_of_le _ (by decide), BitVec.setWidth_eq, BitVec.setWidth_eq, rotl28]

/-- Settles O9: the library's count of a selection's bits, moved to DES numbering. -/
theorem selectTakesTheNamedBits : Obligations.SelectTakesTheNamedBits :=
  ⟨fun _ _ _ => rfl, fun _ v table _ h1 hj => ⟨desBit_select v table h1 hj, desBit_select v table h1 hj⟩⟩

/-- Settles O10: the rotation is the library's, so each bit moves n places; one place is the case n = 1. -/
theorem rotationMovesEachBit : Obligations.RotationMovesEachBit := by
  refine ⟨fun x n hn => ⟨rotl28_eq_extractLsb'_of_wide x n, fun j h1 hj => desBit_rotl28 x hn h1 hj⟩,
    fun x => ⟨rotl28_zero_places x, rotl28_all_places x⟩,
    fun x => ⟨desBit_rotl28 x (by decide) (by decide) le_rfl, fun j h1 hj => ?_⟩⟩
  have hwrap : (j - 1 + 1) % 28 = j := by rw [Nat.sub_add_cancel h1, Nat.mod_eq_of_lt hj]
  rw [desBit_rotl28 x (by decide) h1 hj.le, hwrap]

/-! ### Reads of an empty entry (10_state.md R12, R18; 93_implementation_defined.md I1) -/

/-- I1: READ_SUBKEY while keyed, of an entry that holds `none`. -/
theorem execReadSubkey_readOfNone {rnd : Nat} (h : rnd < 16) {s : State} (hv : s.valid = 1#1) {dir : Direction}
    (he : readEntry s (idx dir ⟨rnd, h⟩) = none) : execReadSubkey dir rnd s = .fault .readOfNone := by
  simp [execReadSubkey, h, hv, he]

/-- A coherent block has a key in full or none at all, so whenever it is keyed every entry can be read (R18, R31). -/
theorem Coherent.readable {s : State} (h : Coherent s) : Readable s := by
  obtain ⟨_ | key, hheld⟩ := h
  · obtain ⟨hv, -, -⟩ := hheld
    intro hv'
    exact absurd hv' (by simp [hv])
  · obtain ⟨-, -, hsk⟩ := hheld
    intro _ i
    simp [hsk i]

/-- R16: from a readable state a READ_SUBKEY of a 4-bit round always answers. -/
theorem Readable.execReadSubkey_next {s : State} (h : Readable s) (dir : Direction) {rnd : Nat} (hr : rnd < 16) :
    ∃ t, execReadSubkey dir rnd s = .next t := by
  by_cases hv : s.valid = 0#1
  · exact ⟨_, execReadSubkey_unkeyed hr hv dir⟩
  · have hkeyed : s.valid = 1#1 := (valid_ne_zero _).1 hv
    obtain ⟨subkey, he⟩ := Option.ne_none_iff_exists'.1 (h hkeyed (idx dir ⟨rnd, hr⟩))
    exact ⟨_, execReadSubkey_keyed hr hkeyed he⟩

/-- Settles O47: a coherent block is readable, and a readable one answers every read. -/
theorem readOfNoneFaults : Obligations.ReadOfNoneFaults := by
  refine ⟨fun dir rnd s hv he => execReadSubkey_readOfNone rnd.isLt hv he, fun dir rnd s hs hfault => ?_⟩
  obtain ⟨t, ht⟩ := hs.readable.execReadSubkey_next dir rnd.isLt
  cases hfault.symm.trans ht

end Sys2Proof.Machine

namespace Sys2Proof.Machine

/-! ### The kinds of event (10_state.md R15, R16) -/

theorem packResponse_validData (v : Flag) : packResponse .ok (validData v) = v.setWidth 52 := by
  revert v; decide

/-- R15, R16: every event loads a key, drops it or keeps it. -/
theorem event_kinds (e : PortEvent) : (∃ key, e.loadsKey key) ∨ e.dropsKey ∨ e.keepsKey = true := by
  cases e with
  | reset => exact .inr (.inl (.inl rfl))
  | request word =>
    cases hd : decode word with
    | rejected why => exact .inr (.inr (by simp [PortEvent.keepsKey, hd]))
    | command i =>
      cases i with
      | status => exact .inr (.inr (by simp [PortEvent.keepsKey, hd]))
      | readSubkey dir rnd => exact .inr (.inr (by simp [PortEvent.keepsKey, hd]))
      | loadKey klen key =>
        by_cases hk : klen = Config.keyBytes
        · exact .inl ⟨key, word, rfl, hk ▸ hd⟩
        · exact .inr (.inl (.inr ⟨word, klen, key, rfl, hd, hk⟩))

theorem keyAfter_loadsKey {e : PortEvent} {key : Key} (he : e.loadsKey key) (held : Option Key) :
    keyAfter held e = some key := by
  obtain ⟨word, rfl, hd⟩ := he
  simp [keyAfter, hd]

theorem keyAfter_dropsKey {e : PortEvent} (he : e.dropsKey) (held : Option Key) : keyAfter held e = none := by
  obtain rfl | ⟨word, klen, key, rfl, hd, hk⟩ := he
  · rfl
  · simp [keyAfter, hd, hk]

theorem keyAfter_keepsKey {e : PortEvent} (he : e.keepsKey = true) (held : Option Key) : keyAfter held e = held := by
  cases e with
  | reset => cases he
  | request word =>
    cases hd : decode word with
    | rejected why => simp [keyAfter, hd]
    | command i =>
      cases i with
      | status => simp [keyAfter, hd]
      | readSubkey dir rnd => simp [keyAfter, hd]
      | loadKey klen key => simp [PortEvent.keepsKey, hd] at he

theorem KeyedWith.of_loadSchedule (key : Key) (st : Status) (data : BitVec 48) (s : State) :
    KeyedWith key (respond st data (loadSchedule key s)) := ⟨rfl, rfl, by simp⟩

/-- Everything an event does when it answers a next state. -/
theorem handleEvent_cases {e : PortEvent} {s t : State} (h : handleEvent e s = .next t) :
    (∃ key, e.loadsKey key ∧ t = respond .ok 0#48 (loadSchedule key s)) ∨
    (e.dropsKey ∧ Unkeyed t ∧ t.port = s.port) ∨
    (e.keepsKey = true ∧ t = { s with rsp := t.rsp }) := by
  obtain ⟨key, he⟩ | he | he := event_kinds e
  · exact .inl ⟨key, he, handleEvent_loadsKey he h⟩
  · exact .inr (.inl ⟨he, handleEvent_dropsKey he h⟩)
  · exact .inr (.inr ⟨he, handleEvent_keepsKey he h⟩)

theorem handleEvent_port {e : PortEvent} {s t : State} (h : handleEvent e s = .next t) : t.port = s.port := by
  obtain ⟨key, -, rfl⟩ | ⟨-, -, hp⟩ | ⟨-, ht⟩ := handleEvent_cases h
  · rfl
  · exact hp
  · rw [ht]

/-- A step is the handling of the oldest event. -/
theorem step_handles {s t : State} (h : step s = .next t) :
    ∃ e rest, s.port = e :: rest ∧ handleEvent e { s with port := rest } = .next t := by
  obtain ⟨word, rest, hp, hw⟩ | ⟨rest, hp, rfl⟩ := step_cases h
  · exact ⟨_, rest, hp, hw⟩
  · exact ⟨_, rest, hp, rfl⟩

theorem step_of_port_nil {s : State} (hp : s.port = []) : step s = .refused .noRequest := by
  simp only [step, takeEvent, hp]

/-- Which key the block holds is told by KEY, SK and VALID alone. -/
theorem Holds.with_rsp_port {held : Option Key} {s : State} (h : Holds held s) (rsp : Option Response)
    (port : List PortEvent) : Holds held { s with rsp := rsp, port := port } := by
  cases held <;> exact h

/-! ### What every step keeps (R18, R31, R73)

One event relates the key held to the state: the claims about one state are the case in which the relation does not
mention the key. -/

/-- A relation between the key held and the registers is kept by every event, if it holds in every coherent state and
does not speak of RSP and the port. -/
theorem handleEvent_keeps {R : Option Key → State → Prop} (hholds : ∀ held s, Holds held s → R held s)
    (hframe : ∀ held s rsp port, R held s → R held { s with rsp := rsp, port := port })
    {held : Option Key} {e : PortEvent} {s t : State} (hs : R held s) (h : handleEvent e s = .next t) :
    R (keyAfter held e) t := by
  obtain ⟨key, he, rfl⟩ | ⟨he, ht, -⟩ | ⟨he, ht⟩ := handleEvent_cases h
  · rw [keyAfter_loadsKey he]
    exact hholds (some key) _ (KeyedWith.of_loadSchedule key _ _ s)
  · rw [keyAfter_dropsKey he]
    exact hholds none t ht
  · rw [keyAfter_keepsKey he, ht]
    exact hframe held s t.rsp s.port hs

/-- A claim about the registers that holds in every coherent state is kept by every step. -/
theorem step_keeps {P : State → Prop} (hcoherent : ∀ s, Coherent s → P s)
    (hframe : ∀ s rsp port, P s → P { s with rsp := rsp, port := port }) {s t : State} (hs : P s)
    (h : step s = .next t) : P t := by
  obtain ⟨e, rest, -, he⟩ := step_handles h
  exact handleEvent_keeps (R := fun _ => P) (held := none) (fun held u hu => hcoherent u ⟨held, hu⟩)
    (fun _ => hframe) (hframe s s.rsp rest hs) he

theorem Coherent.scheduleMatchesKey {s : State} (h : Coherent s) : ScheduleMatchesKey s := by
  obtain ⟨_ | key, hheld⟩ := h
  · obtain ⟨hv, -, -⟩ := hheld
    intro hv'
    exact absurd hv' (by simp [hv])
  · obtain ⟨-, hkey, hsk⟩ := hheld
    exact fun _ => ⟨key, hkey, hsk⟩

/-- Settles O36: a load and a drop leave a coherent state whatever came before, any other event leaves the registers. -/
theorem stepKeepsCoherence : Obligations.StepKeepsCoherence := fun _ _ =>
  step_keeps (fun _ h => h) fun _ rsp port ⟨held, h⟩ => ⟨held, h.with_rsp_port rsp port⟩

/-- R16: every event is answered with a next state, because no read meets an empty entry. -/
theorem Readable.handleEvent_next {s : State} (h : Readable s) (e : PortEvent) : ∃ t, handleEvent e s = .next t := by
  cases e with
  | reset => exact ⟨_, rfl⟩
  | request word =>
    cases hd : decode word with
    | rejected why => simp [handleEvent, serve, hd, execIllegal]
    | command i =>
      simp only [handleEvent, serve, hd]
      cases i with
      | status => exact ⟨_, rfl⟩
      | loadKey klen key =>
        by_cases hk : klen = Config.keyBytes
        · exact ⟨_, hk ▸ execLoadKey_accepted key s⟩
        · exact ⟨_, execLoadKey_rejected hk key s⟩
      | readSubkey dir rnd => exact h.execReadSubkey_next dir (decode_readSubkey_round hd)

/-- Settles O48: an event of a readable state is answered, and an empty port is refused. -/
theorem stepNeverFaultsFromReadableStates : Obligations.StepNeverFaultsFromReadableStates := by
  intro s hs
  have hkept : ∀ t, step s = .next t → Readable t := fun t =>
    step_keeps (fun _ h => h.readable) (fun _ _ _ h => h) hs
  cases hp : s.port with
  | nil => simp [step_of_port_nil hp]
  | cons e rest =>
    obtain ⟨t, ht⟩ := Readable.handleEvent_next (s := { s with port := rest }) hs e
    have hstep : step s = .next t := (step_eq_handleEvent hp).trans ht
    exact ⟨by simp [hstep], by simp [hstep], hkept⟩

/-! ### The block answers from its history (R15 to R18, R60 to R63, R85) -/

/-- VALID of a block that holds this key or none (R16). -/
def keyedFlag (held : Option Key) : Flag := if held.isSome then 1#1 else 0#1

theorem keyedFlag_eq_one {held : Option Key} (h : keyedFlag held = 1#1) : ∃ key, held = some key := by
  cases held with
  | none => exact absurd h (by decide)
  | some key => exact ⟨key, rfl⟩

theorem keyedFlag_eq_zero {held : Option Key} (h : keyedFlag held = 0#1) : held = none := by
  cases held with
  | none => rfl
  | some key => exact absurd h (by simp [keyedFlag])

theorem validData_keyedFlag (held : Option Key) :
    validData (keyedFlag held) = if held.isSome then 1#48 else 0#48 := by
  cases held <;> rfl

theorem Holds.valid : ∀ {held : Option Key} {s : State}, Holds held s → s.valid = keyedFlag held
  | none, _, ⟨hv, _, _⟩ => hv
  | some _, _, ⟨hv, _, _⟩ => hv

theorem Holds.key : ∀ {held : Option Key} {s : State}, Holds held s → s.key = held
  | none, _, ⟨_, hkey, _⟩ => hkey
  | some _, _, ⟨_, hkey, _⟩ => hkey

/-- What a response can depend on: VALID, and the entries of SK while keyed. KEY, and SK while not keyed, may hold
anything. -/
structure Shows (held : Option Key) (s : State) : Prop where
  valid : s.valid = keyedFlag held
  entry : ∀ key, held = some key → ∀ i, readEntry s i = some (ks key i)

theorem Holds.shows {held : Option Key} {s : State} (h : Holds held s) : Shows held s where
  valid := h.valid
  entry := by
    rintro key rfl
    obtain ⟨-, -, hsk⟩ := h
    exact hsk

theorem Shows.of_unkeyed {s : State} (hv : s.valid = 0#1) : Shows none s := ⟨hv, nofun⟩

theorem Shows.readable {held : Option Key} {s : State} (h : Shows held s) : Readable s := by
  intro hv i
  obtain ⟨key, rfl⟩ := keyedFlag_eq_one (h.valid.symm.trans hv)
  simp [h.entry key rfl i]

theorem Shows.handleEvent {held : Option Key} {e : PortEvent} {s t : State} (hs : Shows held s)
    (h : handleEvent e s = .next t) : Shows (keyAfter held e) t :=
  handleEvent_keeps (fun _ _ => Holds.shows) (fun _ _ _ _ hu => ⟨hu.valid, hu.entry⟩) hs h

theorem Holds.handleEvent {held : Option Key} {e : PortEvent} {s t : State} (hs : Holds held s)
    (h : handleEvent e s = .next t) : Holds (keyAfter held e) t :=
  handleEvent_keeps (fun _ _ hu => hu) (fun _ _ rsp port hu => hu.with_rsp_port rsp port) hs h

theorem answer_readSubkey_keyed {word : Request} {dir : Direction} {rnd : Nat}
    (hd : decode word = .command (.readSubkey dir rnd)) (hr : rnd < 16) (key : Key) :
    answer (some key) word = packResponse .ok (ks key (idx dir ⟨rnd, hr⟩)) := by
  have hround : Fin.ofNat 16 rnd = ⟨rnd, hr⟩ := Fin.ext (Nat.mod_eq_of_lt hr)
  simp only [answer, hd, hround]

/-- A request is answered as the key held when it comes says (R60 to R63). -/
theorem Shows.serve_rsp {held : Option Key} {word : Request} {s t : State} (hs : Shows held s)
    (h : serve word s = .next t) : t.rsp = some (answer held word) := by
  obtain ⟨i, hd, hi⟩ | ⟨why, hd, rfl⟩ := serve_cases h
  · obtain ⟨rfl, rfl⟩ | ⟨key, rfl, rfl⟩ | ⟨klen, key, rfl, hk, rfl⟩ | ⟨dir, rnd, rfl, hr, hv, rfl⟩ |
      ⟨dir, rnd, subkey, hr, rfl, hv, he, rfl⟩ := exec_cases hi
    · simp [answer, hd, hs.valid, validData_keyedFlag]
    · simp [answer, hd]
    · simp [answer, hd, hk]
    · obtain rfl := keyedFlag_eq_zero (hs.valid.symm.trans hv)
      simp [answer, hd]
    · obtain ⟨key, rfl⟩ := keyedFlag_eq_one (hs.valid.symm.trans hv)
      obtain rfl : ks key (idx dir ⟨rnd, hr⟩) = subkey := by simpa [hs.entry key rfl] using he
      rw [answer_readSubkey_keyed hd hr, respond_rsp]
  · simp [answer, hd]

/-- A handling of events follows the history through `R`: where `R` relates the key held to the state, it answers the
next event as that key says, and `R` relates the key held afterwards to the state it leaves. -/
def FollowsHistory (handle : PortEvent → State → Host.Outcome State Fault Refusal) (R : Option Key → State → Prop) :
    Prop :=
  ∀ held e s, R held s → ∃ t, handle e s = .next t ∧ responsesOf e t = answers held [e] ∧ R (keyAfter held e) t

theorem responsesOf_request {word : Request} {t : State} {held : Option Key} (h : t.rsp = some (answer held word)) :
    responsesOf (.request word) t = answers held [.request word] := by
  simp [responsesOf, answers, h]

theorem answers_cons (held : Option Key) (e : PortEvent) (rest : List PortEvent) :
    answers held (e :: rest) = answers held [e] ++ answers (keyAfter held e) rest := by
  cases e <;> rfl

section Run

variable {handle : PortEvent → State → Host.Outcome State Fault Refusal} {R : Option Key → State → Prop}

/-- What follows the history at each event follows it along every list of events. -/
theorem FollowsHistory.run (hf : FollowsHistory handle R) (events : List PortEvent) :
    ∀ {held : Option Key} {s : State}, R held s →
      ∃ t, runWith handle events s = .next (t, answers held events) ∧ R (keyAfterAll held events) t := by
  induction events with
  | nil => exact fun {_ s} hs => ⟨s, rfl, hs⟩
  | cons e rest ih =>
    intro held s hs
    obtain ⟨s', he, hresp, hs'⟩ := hf held e s hs
    obtain ⟨t, hrun, ht⟩ := ih hs'
    refine ⟨t, ?_, ht⟩
    simp only [runWith, he, hrun, hresp, answers_cons held e rest]

/-- The observation of a run is fixed by the key held before it. -/
theorem FollowsHistory.observation (hf : FollowsHistory handle R) (hvalid : ∀ held s, R held s → s.valid = keyedFlag held)
    (events : List PortEvent) {held : Option Key} {s : State} (hs : R held s) :
    observation (runWith handle events s) = some (answers held events, keyedFlag (keyAfterAll held events)) := by
  obtain ⟨t, hrun, ht⟩ := hf.run events hs
  simp only [hrun, Machine.observation, hvalid _ t ht]

end Run

theorem handleEvent_answers {held : Option Key} {s : State} (hs : Shows held s) (e : PortEvent) :
    ∃ t, handleEvent e s = .next t ∧ responsesOf e t = answers held [e] := by
  obtain ⟨t, ht⟩ := hs.readable.handleEvent_next e
  refine ⟨t, ht, ?_⟩
  cases e with
  | reset => rfl
  | request word => exact responsesOf_request (hs.serve_rsp ht)

theorem handleEvent_followsHistory_shows : FollowsHistory handleEvent Shows := by
  intro held e s hs
  obtain ⟨t, ht, hresp⟩ := handleEvent_answers hs e
  exact ⟨t, ht, hresp, hs.handleEvent ht⟩

theorem handleEvent_followsHistory_holds : FollowsHistory handleEvent Holds := by
  intro held e s hs
  obtain ⟨t, ht, hresp⟩ := handleEvent_answers hs.shows e
  exact ⟨t, ht, hresp, hs.handleEvent ht⟩

theorem Shows.observation_run {held : Option Key} {s : State} (hs : Shows held s) (events : List PortEvent) :
    observation (run events s) = some (answers held events, keyedFlag (keyAfterAll held events)) :=
  handleEvent_followsHistory_shows.observation (fun _ _ => Shows.valid) events hs

/-- What every event of a list keeps is kept by the run of the list. -/
theorem run_keeps {P : State → Prop} {events : List PortEvent}
    (hstep : ∀ e ∈ events, ∀ s t, P s → handleEvent e s = .next t → P t) {s t : State} {rs : List Response} (hs : P s)
    (h : run events s = .next (t, rs)) : P t := by
  induction events generalizing s rs with
  | nil => cases h; exact hs
  | cons e rest ih =>
    obtain ⟨s', later, he, hrun, -⟩ := run_cons_cases h
    exact ih (fun e' hmem => hstep e' (.tail _ hmem)) (hstep e (.head _) s s' hs he) hrun

theorem run_port {events : List PortEvent} {s t : State} {rs : List Response} (h : run events s = .next (t, rs)) :
    t.port = s.port :=
  run_keeps (P := fun u => u.port = s.port) (fun _ _ _ _ hu hnext => (handleEvent_port hnext).trans hu) rfl h

/-- Settles O56: every event is answered from the key held, so every list of events is. -/
theorem everyRunAnswersFromItsHistory : Obligations.EveryRunAnswersFromItsHistory := by
  intro held events s hs
  obtain ⟨t, hrun, ht⟩ := handleEvent_followsHistory_holds.run events hs
  exact ⟨t, hrun, ht, run_port hrun⟩

/-- Settles O49: two unkeyed blocks answer from the same history, in which no key is held. -/
theorem unkeyedContentsCannotBeObserved : Obligations.UnkeyedContentsCannotBeObserved := fun events _ _ hs ht =>
  ((Shows.of_unkeyed hs).observation_run events).trans ((Shows.of_unkeyed ht).observation_run events).symm

/-! ### The recomputing design (R17, D19, I3) -/

/-- What the recomputing design keeps of its history: VALID and KEY. SK is not spoken of. -/
structure Remembers (held : Option Key) (s : State) : Prop where
  valid : s.valid = keyedFlag held
  key : s.key = held

theorem Holds.remembers {held : Option Key} {s : State} (h : Holds held s) : Remembers held s := ⟨h.valid, h.key⟩

/-- READ_SUBKEY of the recomputing design: the answer comes from KEY. -/
theorem Remembers.recomputeReadSubkey {held : Option Key} {s : State} (hs : Remembers held s) {word : Request}
    {dir : Direction} {rnd : Nat} (hd : decode word = .command (.readSubkey dir rnd)) :
    ∃ t, recomputeReadSubkey dir rnd s = .next t ∧ t.rsp = some (answer held word) ∧ Remembers held t := by
  have hr : rnd < 16 := decode_readSubkey_round hd
  obtain ⟨hv, hk⟩ := hs
  cases held with
  | none =>
    have hv0 : s.valid = 0#1 := hv
    exact ⟨raise .errNotKeyed s, by simp [Machine.recomputeReadSubkey, hr, hv0], by simp [answer, hd], hv, hk⟩
  | some key =>
    have hv1 : s.valid = 1#1 := hv
    exact ⟨respond .ok (ks key (idx dir ⟨rnd, hr⟩)) s, by simp [Machine.recomputeReadSubkey, hr, hv1, hk],
      by rw [answer_readSubkey_keyed hd hr, respond_rsp], hv, hk⟩

/-- LOAD_KEY of the recomputing design: VALID and KEY become those of the stored design. -/
theorem recomputeLoadKey_answers (held : Option Key) (s : State) {word : Request} {klen : Nat} {key : Key}
    (hd : decode word = .command (.loadKey klen key)) :
    ∃ t, recomputeLoadKey klen key s = .next t ∧ t.rsp = some (answer held word) ∧
      Remembers (keyAfter held (.request word)) t := by
  by_cases hk : klen = Config.keyBytes
  · exact ⟨_, if_pos hk, by simp [answer, hd, hk], by simp [keyAfter, hd, hk, keyedFlag], by simp [keyAfter, hd, hk]⟩
  · exact ⟨_, if_neg hk, by simp [answer, hd, hk], by simp [keyAfter, hd, hk, keyedFlag], by simp [keyAfter, hd, hk]⟩

theorem recomputeHandle_followsHistory : FollowsHistory recomputeHandle Remembers := by
  intro held e s hs
  cases e with
  | reset => exact ⟨_, rfl, rfl, rfl, rfl⟩
  | request word =>
    suffices h : ∃ t, recomputeHandle (.request word) s = .next t ∧ t.rsp = some (answer held word) ∧
        Remembers (keyAfter held (.request word)) t by
      obtain ⟨t, ht, hrsp, hrem⟩ := h
      exact ⟨t, ht, responsesOf_request hrsp, hrem⟩
    cases hd : decode word with
    | rejected why =>
      exact ⟨raise .errIllegalCommand s, by simp [recomputeHandle, hd, execIllegal], by simp [answer, hd],
        by simp [keyAfter, hd, hs.valid], by simp [keyAfter, hd, hs.key]⟩
    | command i =>
      simp only [recomputeHandle, hd]
      cases i with
      | status =>
        exact ⟨_, rfl, by simp [answer, hd, hs.valid, validData_keyedFlag], by simp [keyAfter, hd, hs.valid],
          by simp [keyAfter, hd, hs.key]⟩
      | loadKey klen key => exact recomputeLoadKey_answers held s hd
      | readSubkey dir rnd =>
        have hkept : keyAfter held (.request word) = held := by simp [keyAfter, hd]
        rw [hkept]
        exact hs.recomputeReadSubkey hd

theorem Holds.observation_eq_recompute {held : Option Key} {s : State} (hs : Holds held s) (events : List PortEvent) :
    observation (run events s) = observation (runWith recomputeHandle events s) :=
  (hs.shows.observation_run events).trans
    (recomputeHandle_followsHistory.observation (fun _ _ => Remembers.valid) events hs.remembers).symm

theorem Holds.reset : Holds none State.reset := ⟨rfl, rfl, readEntry_assertReset State.reset⟩

/-- Settles O39: both designs follow the same history. -/
theorem storingTheScheduleCannotBeObserved : Obligations.StoringTheScheduleCannotBeObserved :=
  ⟨Holds.reset.observation_eq_recompute, fun events _ ⟨_, hs⟩ => hs.observation_eq_recompute events⟩

/-! ### What a command reads and writes (R14 to R20) -/

/-- Settles O34: a keyed state has one key's schedule; without a key every response follows the empty history. -/
theorem stepKeepsScheduleMatchingKey : Obligations.StepKeepsScheduleMatchingKey := by
  refine ⟨fun s t => step_keeps (fun _ h => h.scheduleMatchesKey) (fun _ _ _ h => h), fun r s k sk hv t ht => ?_⟩
  have hs : Shows none s := .of_unkeyed hv
  have hs' : Shows none { s with key := k, sk := sk } := .of_unkeyed hv
  obtain ⟨u, hu⟩ := hs'.readable.handleEvent_next (.request r)
  have hvalid : u.valid = t.valid :=
    (hs'.handleEvent hu).valid.trans (hs.handleEvent (e := .request r) ht).valid.symm
  exact ⟨u, hu, (hs'.serve_rsp hu).trans (hs.serve_rsp ht).symm, hvalid⟩

/-- Settles O31: of the five things a command can do only the two of LOAD_KEY write more than RSP. -/
theorem onlyLoadKeyWritesKeySkAndValid : Obligations.OnlyLoadKeyWritesKeySkAndValid := by
  intro i s t h
  obtain ⟨rfl, rfl⟩ | ⟨key, rfl, rfl⟩ | ⟨klen, key, rfl, -, rfl⟩ | ⟨dir, rnd, rfl, -, -, rfl⟩ |
    ⟨dir, rnd, subkey, hr, rfl, -, -, rfl⟩ := exec_cases h
  · exact ⟨rfl, fun _ => ⟨rfl, rfl, rfl⟩⟩
  · exact ⟨rfl, fun hne => absurd rfl (hne _ key)⟩
  · exact ⟨rfl, fun hne => absurd rfl (hne klen key)⟩
  · exact ⟨rfl, fun _ => ⟨rfl, rfl, rfl⟩⟩
  · exact ⟨rfl, fun _ => ⟨rfl, rfl, rfl⟩⟩

/-- R15: KEY is an input of no command. -/
theorem exec_with_key {i : Instr} {s t : State} (h : exec i s = .next t) (k : Option Key) :
    ∃ u, exec i { s with key := k } = .next u ∧ u.rsp = t.rsp ∧ u.valid = t.valid ∧ u.sk = t.sk := by
  obtain ⟨rfl, rfl⟩ | ⟨key, rfl, rfl⟩ | ⟨klen, key, rfl, hk, rfl⟩ | ⟨dir, rnd, rfl, hr, hv, rfl⟩ |
    ⟨dir, rnd, subkey, hr, rfl, hv, he, rfl⟩ := exec_cases h
  · exact ⟨_, rfl, rfl, rfl, rfl⟩
  · exact ⟨_, execLoadKey_accepted key _, rfl, rfl, rfl⟩
  · exact ⟨_, execLoadKey_rejected hk key _, rfl, rfl, rfl⟩
  · exact ⟨_, execReadSubkey_unkeyed hr (s := { s with key := k }) hv dir, rfl, rfl, rfl⟩
  · exact ⟨_, execReadSubkey_keyed hr (s := { s with key := k }) hv he, rfl, rfl, rfl⟩

theorem serve_with_key {word : Request} {s t : State} (h : serve word s = .next t) (k : Option Key) :
    ∃ u, serve word { s with key := k } = .next u ∧ u.rsp = t.rsp ∧ u.valid = t.valid ∧ u.sk = t.sk := by
  obtain ⟨i, hd, hi⟩ | ⟨why, hd, rfl⟩ := serve_cases h
  · simp only [serve, hd]
    exact exec_with_key hi k
  · simp only [serve, hd]
    exact ⟨_, rfl, rfl, rfl, rfl⟩

/-- A run from reset ends holding the key its events leave. -/
theorem run_reset_holds {events : List PortEvent} {t : State} {rs : List Response}
    (h : run events State.reset = .next (t, rs)) : Holds (keyAfterAll none events) t := by
  obtain ⟨t', hrun, ht, -⟩ := everyRunAnswersFromItsHistory none events State.reset Holds.reset
  cases h.symm.trans hrun
  exact ht

/-- Settles O32: the kinds of event, the history of a run from reset, and the commands, none of which reads KEY. -/
theorem keyIsWrittenByLoadKeyAndNeverReadBack : Obligations.KeyIsWrittenByLoadKeyAndNeverReadBack := by
  refine ⟨fun s t e rest hp h => ?_, fun events t rs h => (run_reset_holds h).key, fun r s k t h => serve_with_key h k⟩
  have ht := (step_eq_handleEvent hp).symm.trans h
  refine ⟨fun key he => ?_, fun he => ?_, fun he => ?_⟩
  · rw [handleEvent_loadsKey he ht, respond_key, loadSchedule_key]
  · obtain ⟨⟨-, hkey, -⟩, -⟩ := handleEvent_dropsKey he ht
    exact hkey
  · rw [handleEvent_keepsKey he ht]

/-- Settles O33: the kinds of event, the history of a run from reset, and what STATUS and READ_SUBKEY make of VALID. -/
theorem validFollowsTheLastLoad : Obligations.ValidFollowsTheLastLoad := by
  refine ⟨fun s t e rest hp h => ?_, event_kinds, fun events t rs h => ?_, fun s => ?_, fun dir rnd s hv => ?_,
    fun events hfault => ?_⟩
  · have ht := (step_eq_handleEvent hp).symm.trans h
    refine ⟨fun key he => ?_, fun he => ?_, fun he => ?_⟩
    · rw [handleEvent_loadsKey he ht, respond_valid, loadSchedule_valid]
    · obtain ⟨⟨hv, -, -⟩, -⟩ := handleEvent_dropsKey he ht
      exact hv
    · rw [handleEvent_keepsKey he ht]
  · have hheld := run_reset_holds h
    refine ⟨fun hv => ?_, fun hv => keyedFlag_eq_zero (hheld.valid.symm.trans hv)⟩
    obtain ⟨key, hkey⟩ := keyedFlag_eq_one (hheld.valid.symm.trans hv)
    rw [hkey] at hheld
    exact ⟨key, hkey, hheld⟩
  · exact ⟨_, rfl, congrArg some (packResponse_validData s.valid)⟩
  · rw [← packResponse_errNotKeyed]
    exact execReadSubkey_unkeyed rnd.isLt hv dir
  · obtain ⟨t, hrun, -⟩ := everyRunAnswersFromItsHistory none events State.reset Holds.reset
    cases hfault.symm.trans hrun

/-- R54, R62: a keyed block reads the entry of the round in the direction of the read. -/
theorem KeyedWith.exec_readSubkey {key : Key} {s : State} (h : KeyedWith key s) (dir : Direction) (rnd : Fin 16) :
    exec (.readSubkey dir rnd) s = .next { s with rsp := some ((ks key (idx dir rnd)).setWidth 52) } := by
  obtain ⟨hv, -, hsk⟩ := h
  rw [← packResponse_ok]
  exact execReadSubkey_keyed rnd.isLt hv (hsk _)

/-- Settles O37: an event that is no load and no reset leaves all but RSP, and a read indexes the stored schedule. -/
theorem readsNeverMutateTheSchedule : Obligations.ReadsNeverMutateTheSchedule := by
  refine ⟨fun events s t rs hkeeps h => ?_, fun key s rnd entry hs hentry => ?_⟩
  · refine run_keeps (P := fun u => u.key = s.key ∧ u.sk = s.sk ∧ u.valid = s.valid ∧ u.port = s.port)
      (fun e he u v hu hnext => ?_) ⟨rfl, rfl, rfl, rfl⟩ h
    rw [handleEvent_keepsKey (hkeeps e he) hnext]
    exact hu
  · have hmirror : idx .reverse rnd = entry := Fin.ext hentry.symm
    exact ⟨hs.exec_readSubkey .forward rnd, hmirror ▸ hs.exec_readSubkey .reverse rnd⟩

/-- R20: RSP is an input of no command. -/
theorem exec_with_rsp (i : Instr) (s : State) (old : Option Response) : exec i { s with rsp := old } = exec i s := by
  cases i <;> rfl

theorem serve_with_rsp (word : Request) (s : State) (old : Option Response) :
    serve word { s with rsp := old } = serve word s := by
  cases hd : decode word with
  | rejected why => simp only [serve, hd]; rfl
  | command i => simp only [serve, hd, exec_with_rsp]

/-- R20: every command ends in a response. -/
theorem exec_rsp {i : Instr} {s t : State} (h : exec i s = .next t) : ∃ r, t.rsp = some r := by
  obtain ⟨-, rfl⟩ | ⟨-, -, rfl⟩ | ⟨-, -, -, -, rfl⟩ | ⟨-, -, -, -, -, rfl⟩ | ⟨-, -, -, -, -, -, -, rfl⟩ :=
    exec_cases h <;> exact ⟨_, rfl⟩

/-- Settles O38: serving a request reads no RSP and ends in a response. -/
theorem noCommandReadsTheResponseRegister : Obligations.NoCommandReadsTheResponseRegister := by
  refine ⟨serve_with_rsp, fun r s t h => ?_, fun _ => rfl, rfl⟩
  obtain ⟨i, -, hi⟩ | ⟨why, -, rfl⟩ := serve_cases h
  · obtain ⟨rsp, hrsp⟩ := exec_rsp hi
    simp [hrsp]
  · simp

end Sys2Proof.Machine

namespace Sys2Proof.Machine

/-! ### Byte, bit and command order (20_memory.md) -/

/-- A field that starts at bit `start` begins after the DES bits above it (R10). -/
theorem desBit_extractLsb' {w : Nat} (v : BitVec w) {start len b : Nat} (hfit : start + len ≤ w) (h1 : 1 ≤ b)
    (hb : b ≤ len) : desBit (v.extractLsb' start len) b = desBit v (w - start - len + b) := by
  have hlt : len - b < len := by omega
  have hpos : start + (len - b) = w - (w - start - len + b) := by omega
  simp [desBit, hlt, hpos]

/-- R28. The bytes after byte j lie below its field and those before it above, so the field is byte j whole. -/
theorem keyByte_keyOfBytes (k : Vector Byte 8) (j : Fin 8) : keyByte (keyOfBytes k) j = k[j] := by
  fin_cases j <;>
    simp (disch := decide) only [keyByte, keyOfBytes, BitVec.extractLsb'_append_eq_of_le,
      BitVec.extractLsb'_append_eq_of_add_le]
  all_goals exact BitVec.extractLsb'_eq_self

/-- Settles O21: bits within a byte follow from the byte, and the LOAD_KEY word carries its key whole. -/
theorem keyBytesAreBigEndian : Obligations.KeyBytesAreBigEndian := by
  refine ⟨fun k j => ⟨keyByte_keyOfBytes k j, keyByte_keyOfBytes k j⟩, fun k j b hj h1 hb => ?_,
    fun k klen _ => packRequest_keydata _ _ _ _ _ _, by decide⟩
  have hpos : 64 - (56 - 8 * j) - 8 + b = 8 * j + b := by omega
  calc desBit (keyOfBytes k) (8 * j + b)
    _ = desBit (keyByte (keyOfBytes k) ⟨j, hj⟩) b := by
      rw [keyByte, desBit_extractLsb' _ (by omega) h1 hb, hpos]
    _ = desBit k[j] b := by rw [keyByte_keyOfBytes]; rfl

/-- Settles O22: a keyed read answers the subkey zero-extended, and a group is a 6-bit field of the subkey. -/
theorem subkeyBitsAreInResponseOrder : Obligations.SubkeyBitsAreInResponseOrder := by
  refine ⟨fun key s dir rnd j hs h1 hj => ⟨_, _, hs.exec_readSubkey dir rnd, rfl, ?_⟩, fun v g b h1 hg hb1 hb => ?_⟩
  · have hlt : 48 - j < 52 := by omega
    simp [desBit, hlt]
  · have hpos : 48 - (48 - 6 * g) - 6 + b = 6 * g - 6 + b := by omega
    rw [subkeyGroup, desBit_extractLsb' v (by omega) hb1 hb, hpos]

/-- Events that keep the key leave every register but RSP (R31). -/
theorem run_keepsKey {events : List PortEvent} (hkeeps : ∀ e ∈ events, e.keepsKey = true) {s t : State}
    {rs : List Response} (h : run events s = .next (t, rs)) : t = { s with rsp := t.rsp } := by
  refine run_keeps (P := fun u => u = { s with rsp := u.rsp }) (fun e he u v hu hnext => ?_) rfl h
  rw [handleEvent_keepsKey (hkeeps e he) hnext, hu]

/-- Settles O40: the events between change only RSP, which no request reads. -/
theorem repeatedRequestGivesTheSameResponse : Obligations.RepeatedRequestGivesTheSameResponse := by
  intro r between s t rs _ hkeeps hrun s' t' hs' ht'
  rw [run_keepsKey hkeeps hrun, serve_with_rsp] at ht'
  cases hs'.symm.trans ht'
  rfl

/-- R33: a run of two lists is the run of the second from the state the first left. -/
theorem run_append {first second : List PortEvent} {s t u : State} {rs us : List Response}
    (hfirst : run first s = .next (t, rs)) (hsecond : run second t = .next (u, us)) :
    run (first ++ second) s = .next (u, rs ++ us) := by
  induction first generalizing s rs with
  | nil => cases hfirst; exact hsecond
  | cons e rest ih =>
    obtain ⟨s', later, he, hrun, rfl⟩ := run_cons_cases hfirst
    rw [List.append_assoc]
    exact run_cons_of_next he (ih hrun)

theorem exec_with_port {i : Instr} {s t : State} (h : exec i s = .next t) (port : List PortEvent) :
    exec i { s with port := port } = .next { t with port := port } := by
  obtain ⟨rfl, rfl⟩ | ⟨key, rfl, rfl⟩ | ⟨klen, key, rfl, hk, rfl⟩ | ⟨dir, rnd, rfl, hr, hv, rfl⟩ |
    ⟨dir, rnd, subkey, hr, rfl, hv, he, rfl⟩ := exec_cases h
  · rfl
  · exact execLoadKey_accepted key _
  · exact execLoadKey_rejected hk key _
  · exact execReadSubkey_unkeyed hr (s := { s with port := port }) hv dir
  · exact execReadSubkey_keyed hr (s := { s with port := port }) hv he

/-- The handling of an event does not depend on the events still to come (R33). -/
theorem handleEvent_with_port {e : PortEvent} {s t : State} (h : handleEvent e s = .next t) (port : List PortEvent) :
    handleEvent e { s with port := port } = .next { t with port := port } := by
  cases e with
  | reset => cases h; rfl
  | request word =>
    obtain ⟨i, hd, hi⟩ | ⟨why, hd, rfl⟩ := serve_cases h
    · simp only [handleEvent, serve, hd]
      exact exec_with_port hi port
    · simp only [handleEvent, serve, hd]
      rfl

theorem step_of_handleEvent {e : PortEvent} {s t : State} (h : handleEvent e s = .next t) (rest : List PortEvent) :
    step { s with port := e :: rest } = .next { t with port := rest } :=
  (step_eq_handleEvent (s := { s with port := e :: rest }) rfl).trans (handleEvent_with_port h rest)

theorem core_run_succ {s t : State} (h : step s = .next t) (n : Nat) :
    Host.Core.run core (n + 1) s = Host.Core.run core n t := by
  have hcore : core.step s = .next t := h
  simp only [Host.Core.run, hcore]

/-- R33, R81: the machine's steps take the events ahead of those on the port exactly as a run of them does. -/
theorem core_run_of_run {events : List PortEvent} {s t : State} {rs : List Response}
    (h : run events s = .next (t, rs)) :
    Host.Core.run core events.length { s with port := events ++ s.port } = .next t := by
  induction events generalizing s rs with
  | nil => cases h; rfl
  | cons e rest ih =>
    obtain ⟨s', later, he, hrun, -⟩ := run_cons_cases h
    have hstep : step { s with port := e :: rest ++ s.port } = .next { s' with port := rest ++ s'.port } := by
      rw [handleEvent_port he]
      exact step_of_handleEvent he (rest ++ s.port)
    exact (core_run_succ hstep rest.length).trans (ih hrun)

/-- Settles O41: a run is taken apart event by event, and a step is the handling of the port's oldest event. -/
theorem runsComposeInIssueOrder : Obligations.RunsComposeInIssueOrder :=
  ⟨fun _ _ _ _ _ _ _ => run_append, fun _ _ _ _ _ => core_run_of_run⟩

end Sys2Proof.Machine

namespace Sys2Proof

/-! ### A request word is its six fields (30_encoding.md R37) -/

theorem append_inj_iff {m n : Nat} {a c : BitVec m} {b d : BitVec n} : a ++ b = c ++ d ↔ a = c ∧ b = d := by
  refine ⟨fun h => ⟨?_, ?_⟩, fun ⟨ha, hb⟩ => ha ▸ hb ▸ rfl⟩
  · simpa [BitVec.extractLsb'_append_eq_left] using congrArg (BitVec.extractLsb' n m) h
  · simpa [BitVec.extractLsb'_append_eq_right] using congrArg (BitVec.extractLsb' 0 n) h

/-- R37: no field of a request word overlaps another. -/
theorem packRequest_inj {opc opc' klen klen' : BitVec 4} {res res' : BitVec 3} {dir dir' : BitVec 1}
    {rnd rnd' : BitVec 4} {key key' : Key} :
    packRequest opc klen res dir rnd key = packRequest opc' klen' res' dir' rnd' key' ↔
      opc = opc' ∧ klen = klen' ∧ res = res' ∧ dir = dir' ∧ rnd = rnd' ∧ key = key' := by
  calc packRequest opc klen res dir rnd key = packRequest opc' klen' res' dir' rnd' key'
    _ ↔ opc ++ klen ++ res ++ dir ++ rnd ++ key = opc' ++ klen' ++ res' ++ dir' ++ rnd' ++ key' := Iff.rfl
    _ ↔ _ := by simp only [append_inj_iff, and_assoc]

theorem packRequest_and (opc opc' klen klen' : BitVec 4) (res res' : BitVec 3) (dir dir' : BitVec 1)
    (rnd rnd' : BitVec 4) (key key' : Key) :
    packRequest opc klen res dir rnd key &&& packRequest opc' klen' res' dir' rnd' key' =
      packRequest (opc &&& opc') (klen &&& klen') (res &&& res') (dir &&& dir') (rnd &&& rnd') (key &&& key') := by
  refine BitVec.eq_of_getLsbD_eq fun n _ => ?_
  simp only [BitVec.getLsbD_and, getLsbD_packRequest]
  split_ifs <;> rfl

theorem toNat_append_eq_add {m n : Nat} (x : BitVec m) (y : BitVec n) : (x ++ y).toNat = x.toNat * 2 ^ n + y.toNat := by
  rw [BitVec.toNat_append, ← Nat.shiftLeft_add_eq_or_of_lt y.isLt, Nat.shiftLeft_eq]

/-- R37: each field counts at the weight of its lowest bit. -/
theorem toNat_packRequest (opc klen : BitVec 4) (res : BitVec 3) (dir : BitVec 1) (rnd : BitVec 4) (key : Key) :
    (packRequest opc klen res dir rnd key).toNat =
      opc.toNat * 2 ^ 76 + klen.toNat * 2 ^ 72 + res.toNat * 2 ^ 69 + dir.toNat * 2 ^ 68 + rnd.toNat * 2 ^ 64 +
        key.toNat := by
  simp only [packRequest, toNat_append_eq_add]
  omega

section Fields

variable (r : Request)

/-- R37: the six fields are the whole word. -/
theorem packRequest_fields : packRequest r.opc r.klen r.res r.dir r.rnd r.keydata = r := by
  simp (disch := rfl) only [packRequest, Request.opc, Request.klen, Request.res, Request.dir, Request.rnd,
    Request.keydata, BitVec.extractLsb'_append_extractLsb'_eq_extractLsb']
  exact BitVec.extractLsb'_eq_self

/-- STATUS: every field below OPC must be 0 (R39). -/
theorem below_opc_eq_zero : r.extractLsb' 0 76 = 0#76 ↔
    r.klen = 0#4 ∧ r.res = 0#3 ∧ r.dir = 0#1 ∧ r.rnd = 0#4 ∧ r.keydata = 0#64 := by
  have hfields : r.klen ++ r.res ++ r.dir ++ r.rnd ++ r.keydata = r.extractLsb' 0 76 := by
    simp (disch := rfl) only [Request.klen, Request.res, Request.dir, Request.rnd, Request.keydata,
      BitVec.extractLsb'_append_extractLsb'_eq_extractLsb']
  calc r.extractLsb' 0 76 = 0#76
    _ ↔ r.klen ++ r.res ++ r.dir ++ r.rnd ++ r.keydata = 0#4 ++ 0#3 ++ 0#1 ++ 0#4 ++ 0#64 := by rw [hfields]; rfl
    _ ↔ _ := by simp only [append_inj_iff, and_assoc]

/-- LOAD_KEY: RES, DIR and RND must be 0 (R39). -/
theorem res_dir_rnd_eq_zero : r.extractLsb' 64 8 = 0#8 ↔ r.res = 0#3 ∧ r.dir = 0#1 ∧ r.rnd = 0#4 := by
  have hfields : r.res ++ r.dir ++ r.rnd = r.extractLsb' 64 8 := by
    simp (disch := rfl) only [Request.res, Request.dir, Request.rnd,
      BitVec.extractLsb'_append_extractLsb'_eq_extractLsb']
  calc r.extractLsb' 64 8 = 0#8
    _ ↔ r.res ++ r.dir ++ r.rnd = 0#3 ++ 0#1 ++ 0#4 := by rw [hfields]; rfl
    _ ↔ _ := by simp only [append_inj_iff, and_assoc]

/-- READ_SUBKEY: KLEN and RES must be 0 (R39). -/
theorem klen_res_eq_zero : r.extractLsb' 69 7 = 0#7 ↔ r.klen = 0#4 ∧ r.res = 0#3 := by
  have hfields : r.klen ++ r.res = r.extractLsb' 69 7 :=
    BitVec.extractLsb'_append_extractLsb'_eq_extractLsb' rfl
  calc r.extractLsb' 69 7 = 0#7
    _ ↔ r.klen ++ r.res = 0#4 ++ 0#3 := by rw [hfields]; rfl
    _ ↔ _ := append_inj_iff

theorem packRequest_eq_iff {opc klen : BitVec 4} {res : BitVec 3} {dir : BitVec 1} {rnd : BitVec 4} {key : Key} :
    packRequest opc klen res dir rnd key = r ↔
      r.opc = opc ∧ r.klen = klen ∧ r.res = res ∧ r.dir = dir ∧ r.rnd = rnd ∧ r.keydata = key := by
  rw [eq_comm, ← packRequest_inj, packRequest_fields]

/-- R39: a word under a mask, field by field. -/
theorem masked_eq_iff (opc opc' klen klen' : BitVec 4) (res res' : BitVec 3) (dir dir' : BitVec 1)
    (rnd rnd' : BitVec 4) (key key' : Key) :
    r &&& packRequest opc klen res dir rnd key = packRequest opc' klen' res' dir' rnd' key' ↔
      r.opc &&& opc = opc' ∧ r.klen &&& klen = klen' ∧ r.res &&& res = res' ∧ r.dir &&& dir = dir' ∧
        r.rnd &&& rnd = rnd' ∧ r.keydata &&& key = key' := by
  rw [← packRequest_inj, ← packRequest_and, packRequest_fields]

end Fields

/-! ### What the decoder answers (R39, R41) -/

section Decoder

variable {r : Request}

theorem decode_eq_status_iff : decode r = .command .status ↔ r.opc = 0x0#4 ∧ r.extractLsb' 0 76 = 0#76 := by
  refine ⟨fun h => ?_, fun ⟨hopc, hz⟩ => by simp [decode, hopc, hz]⟩
  obtain ⟨e, hr⟩ | ⟨e, -⟩ | ⟨e, -⟩ | ⟨e, -⟩ | ⟨e, -⟩ := decode_cases r <;> cases e.symm.trans h
  exact hr

theorem decode_eq_loadKey_iff {klen : Nat} {key : Key} : decode r = .command (.loadKey klen key) ↔
    (r.opc = 0x1#4 ∧ r.extractLsb' 64 8 = 0#8) ∧ klen = r.klen.toNat ∧ key = r.keydata := by
  refine ⟨fun h => ?_, fun ⟨⟨hopc, hz⟩, hklen, hkey⟩ => by simp [decode, hopc, hz, hklen, hkey]⟩
  obtain ⟨e, -⟩ | ⟨e, hr⟩ | ⟨e, -⟩ | ⟨e, -⟩ | ⟨e, -⟩ := decode_cases r <;> cases e.symm.trans h
  exact ⟨hr, rfl, rfl⟩

theorem decode_eq_readSubkey_iff {dir : Direction} {rnd : Nat} : decode r = .command (.readSubkey dir rnd) ↔
    (r.opc = 0x2#4 ∧ r.extractLsb' 69 7 = 0#7 ∧ r.extractLsb' 0 64 = 0#64) ∧
      dir = Direction.ofBit r.dir ∧ rnd = r.rnd.toNat := by
  refine ⟨fun h => ?_, fun ⟨⟨hopc, hz, hkey⟩, hdir, hrnd⟩ => by simp [decode, hopc, hz, hkey, hdir, hrnd]⟩
  obtain ⟨e, -⟩ | ⟨e, -⟩ | ⟨e, hr⟩ | ⟨e, -⟩ | ⟨e, -⟩ := decode_cases r <;> cases e.symm.trans h
  exact ⟨hr, rfl, rfl⟩

/-- A number of a 4-bit field: in range, and the field holds it (R40, R44). -/
theorem eq_toNat_iff {n : Nat} {x : BitVec 4} : n = x.toNat ↔ n ≤ 15 ∧ x = BitVec.ofNat 4 n := by
  constructor
  · rintro rfl
    exact ⟨Nat.le_of_lt_succ x.isLt, by simp⟩
  · rintro ⟨hn, rfl⟩
    rw [BitVec.toNat_ofNat, Nat.mod_eq_of_lt (Nat.lt_succ_of_le hn)]

theorem eq_ofBit_iff {dir : Direction} {b : BitVec 1} : dir = Direction.ofBit b ↔ b = dir.toBit := by
  constructor
  · rintro rfl; exact (direction_toBit_ofBit b).symm
  · rintro rfl; exact (direction_ofBit_toBit dir).symm

/-- The decoder and the encoder are one relation between the words and the well-formed commands (R39 to R41). -/
theorem decode_eq_command_iff {i : Instr} : decode r = .command i ↔ i.wellFormed = true ∧ encode i = r := by
  cases i with
  | status => rw [decode_eq_status_iff, below_opc_eq_zero, encode, packRequest_eq_iff, and_iff_right wellFormed_status]
  | loadKey klen key =>
    rw [decode_eq_loadKey_iff, res_dir_rnd_eq_zero, eq_toNat_iff, wellFormed_loadKey, encode, packRequest_eq_iff,
      @eq_comm _ key]
    tauto
  | readSubkey dir rnd =>
    rw [decode_eq_readSubkey_iff, klen_res_eq_zero, eq_toNat_iff, eq_ofBit_iff, wellFormed_readSubkey, encode,
      packRequest_eq_iff, Request.keydata]
    tauto

end Decoder

/-- Settles O2: a well-formed command stands in the relation to its own word. -/
theorem decodeOfEncodeIsTheCommand : Obligations.DecodeOfEncodeIsTheCommand :=
  fun _ hi => decode_eq_command_iff.2 ⟨hi, rfl⟩

/-- Settles O3: a decoded command is well formed and stands in the relation to its word. -/
theorem decodedCommandEncodesToItsWord : Obligations.DecodedCommandEncodesToItsWord :=
  fun _ _ => decode_eq_command_iff.1

/-! ### The opcode map by match and mask (R39, opcode_table.json) -/

section Rows

open BitVec (allOnes)

variable (r : Request)

theorem matchesWord_status : Instr.status.row.matchesWord r ↔ r.opc = 0x0#4 ∧ r.extractLsb' 0 76 = 0#76 := by
  have hmask : Instr.status.row.mask =
      packRequest (allOnes 4) (allOnes 4) (allOnes 3) (allOnes 1) (allOnes 4) (allOnes 64) := rfl
  have hbits : Instr.status.row.bits = packRequest 0x0#4 0#4 0#3 0#1 0#4 0#64 := rfl
  rw [OpcodeRow.matchesWord, hmask, hbits, masked_eq_iff, below_opc_eq_zero]
  simp only [BitVec.and_allOnes]

theorem matchesWord_loadKey (klen : Nat) (key : Key) :
    (Instr.loadKey klen key).row.matchesWord r ↔ r.opc = 0x1#4 ∧ r.extractLsb' 64 8 = 0#8 := by
  have hmask : (Instr.loadKey klen key).row.mask =
      packRequest (allOnes 4) 0#4 (allOnes 3) (allOnes 1) (allOnes 4) 0#64 := rfl
  have hbits : (Instr.loadKey klen key).row.bits = packRequest 0x1#4 0#4 0#3 0#1 0#4 0#64 := rfl
  rw [OpcodeRow.matchesWord, hmask, hbits, masked_eq_iff, res_dir_rnd_eq_zero]
  simp only [BitVec.and_allOnes, BitVec.and_zero, true_and, and_true]

theorem matchesWord_readSubkey (dir : Direction) (rnd : Nat) : (Instr.readSubkey dir rnd).row.matchesWord r ↔
    r.opc = 0x2#4 ∧ r.extractLsb' 69 7 = 0#7 ∧ r.extractLsb' 0 64 = 0#64 := by
  have hmask : (Instr.readSubkey dir rnd).row.mask =
      packRequest (allOnes 4) (allOnes 4) (allOnes 3) 0#1 0#4 (allOnes 64) := rfl
  have hbits : (Instr.readSubkey dir rnd).row.bits = packRequest 0x2#4 0#4 0#3 0#1 0#4 0#64 := rfl
  rw [OpcodeRow.matchesWord, hmask, hbits, masked_eq_iff, klen_res_eq_zero]
  simp only [BitVec.and_allOnes, BitVec.and_zero, true_and, and_assoc, Request.keydata]

end Rows

section Decoder

variable {r : Request}

/-- R37, R40: DIR = 1 is the reverse direction. -/
theorem ofBit_dir_eq_reverse_iff : Direction.ofBit r.dir = .reverse ↔ r.getLsbD 68 = true := by
  have hbit : ∀ b : BitVec 1, Direction.ofBit b = .reverse ↔ b.getLsbD 0 = true := by decide
  rw [hbit, Request.dir, BitVec.getLsbD_extractLsb']
  simp

/-- R41 (a): an opcode above 2 is none of the three. -/
theorem three_le_opc_iff {opc : BitVec 4} : 3 ≤ opc.toNat ↔ opc ≠ 0x0#4 ∧ opc ≠ 0x1#4 ∧ opc ≠ 0x2#4 := by
  revert opc; decide

theorem decode_of_reserved_opcode (h : 3 ≤ r.opc.toNat) : decode r = .rejected .reservedOpcode := by
  obtain ⟨h0, h1, h2⟩ := three_le_opc_iff.1 h
  simp [decode, h0, h1, h2]

theorem exists_loadKey_iff : (∃ klen key, decode r = .command (.loadKey klen key)) ↔
    r.opc = 0x1#4 ∧ r.extractLsb' 64 8 = 0#8 := by
  simp only [decode_eq_loadKey_iff, exists_and_left, exists_eq, and_true]

theorem exists_readSubkey_iff : (∃ dir rnd, decode r = .command (.readSubkey dir rnd)) ↔
    r.opc = 0x2#4 ∧ r.extractLsb' 69 7 = 0#7 ∧ r.extractLsb' 0 64 = 0#64 := by
  simp only [decode_eq_readSubkey_iff, exists_and_left, exists_eq, and_true]

/-- R41: the words that are no command. -/
theorem exists_rejected_iff : (∃ why, decode r = .rejected why) ↔
    3 ≤ r.opc.toNat ∨ (r.opc = 0x0#4 ∧ r.extractLsb' 0 76 ≠ 0#76) ∨ (r.opc = 0x1#4 ∧ r.extractLsb' 64 8 ≠ 0#8) ∨
      (r.opc = 0x2#4 ∧ (r.extractLsb' 69 7 ≠ 0#7 ∨ r.extractLsb' 0 64 ≠ 0#64)) := by
  rw [three_le_opc_iff, ← not_and_or]
  obtain ⟨e, hopc, hz⟩ | ⟨e, hopc, hz⟩ | ⟨e, hopc, hz⟩ | ⟨e, hr⟩ | ⟨e, hr⟩ := decode_cases r
  · simp [e, hopc, hz]
  · simp [e, hopc, hz]
  · simp [e, hopc, hz]
  · simp only [e, Decoded.rejected.injEq, exists_eq', true_iff]
    exact .inr hr
  · simp only [e, Decoded.rejected.injEq, exists_eq', true_iff]
    exact .inl hr

end Decoder

end Sys2Proof

namespace Sys2Proof.Machine

/-- R41, R63: a refused word is answered as illegal and changes nothing but RSP. -/
theorem serve_rejected {word : Request} {why : Reject} (h : decode word = .rejected why) (s : State) :
    serve word s = .next { s with rsp := some 0x3000000000000#52 } := by
  simp only [serve, h, execIllegal, raise, respond, packResponse_errIllegalCommand]

/-- Settles O4: the decoder's three iffs, which the rows' masks repeat field by field. -/
theorem decodeFollowsTheOpcodeMap : Obligations.DecodeFollowsTheOpcodeMap := fun r =>
  ⟨decode_eq_status_iff,
    decode_eq_status_iff.trans (matchesWord_status r).symm,
    exists_loadKey_iff,
    exists_loadKey_iff.trans (matchesWord_loadKey r 0 0#64).symm,
    exists_readSubkey_iff,
    exists_readSubkey_iff.trans (matchesWord_readSubkey r .forward 0).symm,
    decode_of_reserved_opcode,
    fun _ => serve_rejected⟩

/-- Settles O6: the two kinds of refused word of R41 are all the words that are no command. -/
theorem refusedWordsChangeOnlyTheResponse : Obligations.RefusedWordsChangeOnlyTheResponse := by
  intro r s
  split_ifs with h
  · obtain ⟨why, hd⟩ := exists_rejected_iff.2 h
    exact serve_rejected hd s
  · cases hd : decode r with
    | command i => exact ⟨i, rfl⟩
    | rejected why => exact absurd (exists_rejected_iff.1 ⟨why, hd⟩) h

/-- Settles O5: the operands the decoder gives, and a LOAD_KEY of a wrong length, which drops its key. -/
theorem operandsAreTheirFields : Obligations.OperandsAreTheirFields := by
  refine ⟨fun r klen key h => ?_, fun r dir rnd h => ?_, fun klen a b s _ hk => ?_⟩
  · obtain ⟨-, rfl, rfl⟩ := decode_eq_loadKey_iff.1 h
    exact ⟨rfl, (eq_toNat_iff.1 rfl).1, rfl⟩
  · obtain ⟨-, rfl, rfl⟩ := decode_eq_readSubkey_iff.1 h
    exact ⟨ofBit_dir_eq_reverse_iff, rfl, (eq_toNat_iff.1 rfl).1⟩
  · exact (execLoadKey_rejected hk a s).trans (execLoadKey_rejected hk b s).symm

/-! ### The assembler (R44, R45) -/

theorem assemble_loadKey (klen k : Nat) : assemble (.loadKey klen k) =
    if klen ≤ 15 ∧ k < 2 ^ 64 then some (encode (.loadKey klen (BitVec.ofNat 64 k))) else none := rfl

theorem assemble_readSubkey (dir : Direction) (rnd : Nat) : assemble (.readSubkey dir rnd) =
    if rnd ≤ 15 then some (encode (.readSubkey dir rnd)) else none := rfl

theorem toNat_encode_loadKey {klen : Nat} (h : klen ≤ 15) (key : Key) :
    (encode (.loadKey klen key)).toNat = 1 * 2 ^ 76 + klen * 2 ^ 72 + key.toNat := by
  have hklen : (BitVec.ofNat 4 klen).toNat = klen := (eq_toNat_iff.2 ⟨h, rfl⟩).symm
  simp [encode, toNat_packRequest, hklen]

theorem toNat_encode_readSubkey (dir : Direction) {rnd : Nat} (h : rnd ≤ 15) :
    (encode (.readSubkey dir rnd)).toNat = 2 * 2 ^ 76 + dir.toBit.toNat * 2 ^ 68 + rnd * 2 ^ 64 := by
  have hrnd : (BitVec.ofNat 4 rnd).toNat = rnd := (eq_toNat_iff.2 ⟨h, rfl⟩).symm
  simp [encode, toNat_packRequest, hrnd]

/-- Settles O7: a line in range assembles to its command's word, whose fields count at their weights. -/
theorem assembledWordIsItsFieldsAsANumber : Obligations.AssembledWordIsItsFieldsAsANumber := by
  refine ⟨by decide, fun klen key => ?_, fun rnd => ?_, fun _ => rfl⟩
  · rw [assemble_loadKey]
    split_ifs with h
    · obtain ⟨hklen, hkey⟩ := h
      refine ⟨_, rfl, ?_⟩
      rw [toNat_encode_loadKey hklen, BitVec.toNat_ofNat, Nat.mod_eq_of_lt hkey]
    · rfl
  · simp only [assemble_readSubkey]
    split_ifs with h
    · exact ⟨⟨_, rfl, toNat_encode_readSubkey .forward h⟩, ⟨_, rfl, toNat_encode_readSubkey .reverse h⟩⟩
    · exact fun _ => rfl

/-- R59: the word of a well-formed command is served as the command. -/
theorem serve_encode {i : Instr} (h : i.wellFormed = true) (s : State) : serve (encode i) s = exec i s := by
  simp only [serve, decodeOfEncodeIsTheCommand i h]

/-- R45: an assembled LOAD_KEY is served as the command. -/
theorem serve_assembled_loadKey {klen : Nat} {key : Key} {w : Request} (h : klen ≤ 15)
    (hw : assemble (.loadKey klen key.toNat) = some w) (s : State) : serve w s = exec (.loadKey klen key) s := by
  rw [assemble_loadKey, if_pos ⟨h, key.isLt⟩, BitVec.ofNat_toNat, BitVec.setWidth_eq] at hw
  cases hw
  exact serve_encode ((wellFormed_loadKey klen key).2 h) s

/-- R45: an assembled READ_SUBKEY is served as the command. -/
theorem serve_assembled_readSubkey {dir : Direction} {rnd : Fin 16} {w : Request}
    (hw : assemble (.readSubkey dir rnd) = some w) (s : State) : serve w s = exec (.readSubkey dir rnd) s := by
  have hrnd : rnd.val ≤ 15 := Nat.le_of_lt_succ rnd.isLt
  rw [assemble_readSubkey, if_pos hrnd] at hw
  cases hw
  exact serve_encode ((wellFormed_readSubkey dir rnd).2 hrnd) s

/-- Settles O8: an assembled line is served as its command, and a keyed block answers a read with the entry. -/
theorem pseudoInstructionsDoWhatTheySay : Obligations.PseudoInstructionsDoWhatTheySay := by
  refine ⟨fun _ => rfl, fun _ => rfl, fun _ => rfl, fun key s klen w hklen hw => ?_,
    fun key s rnd entry w hs => ⟨fun hw => ?_, fun hw hentry => ?_⟩⟩
  · rw [serve_assembled_loadKey hklen hw]
    obtain rfl | hk := eq_or_ne klen Config.keyBytes
    · exact ⟨_, execLoadKey_accepted key s, iff_of_true rfl rfl⟩
    · exact ⟨_, execLoadKey_rejected hk key s, iff_of_false (by simp) hk⟩
  · exact (serve_assembled_readSubkey hw s).trans (hs.exec_readSubkey .forward rnd)
  · have hmirror : idx .reverse rnd = entry := Fin.ext hentry.symm
    exact (serve_assembled_readSubkey hw s).trans (hmirror ▸ hs.exec_readSubkey .reverse rnd)

/-- Settles O1: the decoder evaluates on each closed word. -/
theorem writtenWordsDecode : Obligations.WrittenWordsDecode := by
  unfold Obligations.WrittenWordsDecode
  decide

end Sys2Proof.Machine

namespace Sys2Proof.Machine

/-! ### Values by their DES bits (00_scope.md R10) -/

theorem eq_of_desBit_eq {w : Nat} {a b : BitVec w} (h : ∀ j, 1 ≤ j → j ≤ w → desBit a j = desBit b j) : a = b := by
  refine BitVec.eq_of_getMsbD_eq fun i hi => ?_
  simpa only [desBit_eq_getMsbD _ (Nat.le_add_left 1 i) hi, Nat.add_sub_cancel] using h (i + 1) (Nat.le_add_left 1 i) hi

/-- The left part of a concatenation comes first in DES numbering. -/
theorem desBit_append {m n : Nat} (x : BitVec m) (y : BitVec n) {j : Nat} (hj : j ≤ m + n) :
    desBit (x ++ y) j = if j ≤ m then desBit x j else desBit y (j - m) := by
  simp only [desBit, BitVec.getLsbD_append]
  obtain hleft | hright := le_or_gt j m
  · have hpos : m + n - j - n = m - j := by omega
    rw [if_neg (by omega), if_pos hleft, hpos]
  · have hpos : m + n - j = n - (j - m) := by omega
    rw [if_pos (by omega), if_neg hright.not_ge, hpos]

@[simp] theorem desBit_xor {w : Nat} (a b : BitVec w) (n : Nat) : desBit (a ^^^ b) n = (desBit a n ^^ desBit b n) :=
  BitVec.getLsbD_xor

@[simp] theorem desBit_and {w : Nat} (a b : BitVec w) (n : Nat) : desBit (a &&& b) n = (desBit a n && desBit b n) :=
  BitVec.getLsbD_and

theorem cons_inj_iff {w : Nat} {a b : Bool} {x y : BitVec w} : BitVec.cons a x = BitVec.cons b y ↔ a = b ∧ x = y := by
  refine ⟨fun h => ?_, fun ⟨ha, hx⟩ => ha ▸ hx ▸ rfl⟩
  simpa using And.intro (congrArg BitVec.msb h) (congrArg (BitVec.setWidth w) h)

/-- A selection tells two values apart exactly by the bits its table names. -/
theorem select_eq_iff {w : Nat} {a b : BitVec w} {table : List Nat} :
    select a table = select b table ↔ ∀ n ∈ table, desBit a n = desBit b n := by
  induction table with
  | nil => simp [select]
  | cons n rest ih => rw [List.forall_mem_cons, ← ih]; exact cons_inj_iff

/-- A table whose entries are bounded holds each number as often as it does up to the bound. -/
theorem count_eq_ite_of_le_bound {table : List Nat} {bound : Nat} {P : Nat → Prop} [DecidablePred P]
    (hbound : ∀ n ∈ table, n ≤ bound) (hle : ∀ n ≤ bound, table.count n = if 1 ≤ n ∧ P n then 1 else 0) (n : Nat) :
    table.count n = if 1 ≤ n ∧ n ≤ bound ∧ P n then 1 else 0 := by
  by_cases hn : n ≤ bound
  · simp only [hle n hn, hn, true_and]
  · have hmem : n ∉ table := fun hmem => hn (hbound n hmem)
    simp [List.count_eq_zero_of_not_mem hmem, hn]

/-! ### PC1 and the halves (40_key_schedule_function.md R47, R48) -/

theorem desBit_pc1Select (key : Key) {j : Nat} (h1 : 1 ≤ j) (hj : j ≤ 56) :
    desBit (pc1Select key) j = desBit key (pc1.getD (j - 1) 0) :=
  desBit_select key pc1 h1 hj

/-- R47: the key bits that are not parity bits, each once. -/
theorem pc1_count (n : Nat) : pc1.count n = if 1 ≤ n ∧ n ≤ 64 ∧ n % 8 ≠ 0 then 1 else 0 := by
  refine count_eq_ite_of_le_bound (P := fun n => n % 8 ≠ 0) ?_ ?_ n
  · decide
  · decide +kernel

theorem mem_pc1 {n : Nat} : n ∈ pc1 ↔ 1 ≤ n ∧ n ≤ 64 ∧ n % 8 ≠ 0 := by
  rw [← List.count_pos_iff, pc1_count]
  split_ifs with h <;> simp [h]

/-- Settles O11: a selection copies the bits its table names, and the entries are counted up to 64. -/
theorem pc1SelectsTheKeyBits : Obligations.Pc1SelectsTheKeyBits :=
  ⟨rfl, fun key _ h1 hj => desBit_pc1Select key h1 hj, pc1_count⟩

/-- R48: the two halves are the whole of the PC1 output. -/
theorem halfC_append_halfD (key : Key) : halfC key ++ halfD key = pc1Select key :=
  (BitVec.extractLsb'_append_extractLsb'_eq_extractLsb' rfl).trans BitVec.extractLsb'_eq_self

theorem desBit_halfC (key : Key) {j : Nat} (h1 : 1 ≤ j) (hj : j ≤ 28) :
    desBit (halfC key) j = desBit (pc1Select key) j := by
  rw [halfC, desBit_extractLsb' _ (by decide) h1 hj, Nat.zero_add]

theorem desBit_halfD (key : Key) {j : Nat} (h1 : 1 ≤ j) (hj : j ≤ 28) :
    desBit (halfD key) j = desBit (pc1Select key) (28 + j) :=
  desBit_extractLsb' _ (by decide) h1 hj

/-- Settles O12: each half is a field of the PC1 output. -/
theorem halvesSplitThePc1Output : Obligations.HalvesSplitThePc1Output := fun key =>
  ⟨rfl, rfl, fun _ h1 hj => ⟨desBit_halfC key h1 hj, desBit_halfD key h1 hj⟩⟩

/-! ### Rotations (R49 to R51, R57) -/

/-- R51: rotations compose, modulo the width of a half. -/
theorem rotl28_rotl28 (x : Half) {a b : Nat} (ha : a ≤ 28) (hb : b ≤ 28) :
    rotl28 (rotl28 x a) b = rotl28 x ((a + b) % 28) := by
  refine eq_of_desBit_eq fun j h1 hj => ?_
  have hsum : (a + b) % 28 ≤ 28 := (Nat.mod_lt _ (by decide)).le
  have hmid : (j - 1 + b) % 28 + 1 ≤ 28 := Nat.mod_lt _ (by decide)
  have hpos : ((j - 1 + b) % 28 + 1 - 1 + a) % 28 = (j - 1 + (a + b) % 28) % 28 := by omega
  rw [desBit_rotl28 _ hb h1 hj, desBit_rotl28 x ha (Nat.le_add_left 1 _) hmid, desBit_rotl28 x hsum h1 hj, hpos]

/-- R57: a rotation by the whole width is none, so 28 may stand for itself. -/
theorem rotl28_mod (x : Half) {n : Nat} (h : n ≤ 28) : rotl28 x (n % 28) = rotl28 x n := by
  obtain hlt | rfl := h.lt_or_eq
  · rw [Nat.mod_eq_of_lt hlt]
  · rw [rotl28_all_places]; exact rotl28_zero_places x

theorem cum_succ (i : Nat) : cum (i + 1) = cum i + shift (i + 1) := by
  rw [cum, List.take_add_one, List.sum_append, ← cum, shift, List.getD_eq_getElem?_getD]
  cases shiftTable[i + 1]? <;> simp

theorem cum_le (i : Nat) : cum i ≤ 28 :=
  (List.take_sublist (i + 1) shiftTable).sum_le_sum fun _ _ => Nat.zero_le _

theorem cum_eq_sum_shift (i : Nat) : cum i = ((List.range (i + 1)).map shift).sum := by
  induction i with
  | zero => rfl
  | succ i ih =>
    rw [cum_succ, ih, List.range_succ (n := i + 1), List.map_append, List.sum_append]
    exact congrArg _ List.sum_singleton.symm

theorem one_le_cum (i : Nat) : 1 ≤ cum i := by
  induction i with
  | zero => exact le_rfl
  | succ i ih => rw [cum_succ]; omega

/-- R51: stepping by SHIFT reaches the rotation by CUM. -/
theorem steppedHalf_succ_eq_rotl28_cum (x : Half) (i : Nat) : steppedHalf x (i + 1) = rotl28 x (cum i) := by
  induction i with
  | zero => rfl
  | succ i ih =>
    have hcum : cum i + shift (i + 1) ≤ 28 := cum_succ i ▸ cum_le (i + 1)
    rw [steppedHalf, ih, rotl28_rotl28 x (cum_le i) (by omega), rotl28_mod x hcum, cum_succ]

/-- Settles O13: rotations compose, and CUM grows by SHIFT and stays within the width. -/
theorem steppedRotationIsTheCumulativeOne : Obligations.SteppedRotationIsTheCumulativeOne :=
  ⟨rfl, rfl, fun i => ⟨cum_eq_sum_shift i, one_le_cum i, cum_le i⟩, fun x _ _ ha hb => rotl28_rotl28 x ha hb,
    fun key i => ⟨rfl, steppedHalf_succ_eq_rotl28_cum (halfC key) i, steppedHalf_succ_eq_rotl28_cum (halfD key) i⟩,
    fun _ _ => ⟨rfl, rfl⟩⟩

/-- R57: the last round's halves are those of PC1. -/
theorem rotatedCD_last (key : Key) : rotatedCD key 15 = pc1Select key := by
  have hlast : cum 15 = 28 := rfl
  rw [rotatedCD, hlast, rotl28_all_places, rotl28_all_places, halfC_append_halfD]

/-- Settles O19: CUM[15] is the whole width of a half. -/
theorem lastRoundReturnsToTheFirstHalves : Obligations.LastRoundReturnsToTheFirstHalves :=
  ⟨rfl, fun key => ⟨rotl28_all_places (halfC key), rotl28_all_places (halfD key)⟩,
    fun key => congrArg pc2Select (rotatedCD_last key),
    fun x => (steppedHalf_succ_eq_rotl28_cum x 15).trans (rotl28_all_places x)⟩

/-! ### PC2 (R52) -/

theorem desBit_pc2Select (cd : CD) {j : Nat} (h1 : 1 ≤ j) (hj : j ≤ 48) :
    desBit (pc2Select cd) j = desBit cd (pc2.getD (j - 1) 0) :=
  desBit_select cd pc2 h1 hj

/-- R52: every entry names one of the 56 bits, and the first 24 entries are those that name bits of C. -/
theorem pc2_entry_bounds {j : Nat} (h1 : 1 ≤ j) (hj : j ≤ 48) :
    1 ≤ pc2.getD (j - 1) 0 ∧ pc2.getD (j - 1) 0 ≤ 56 ∧ (pc2.getD (j - 1) 0 ≤ 28 ↔ j ≤ 24) := by
  have hentries : ∀ j ≤ 48, 1 ≤ j →
      1 ≤ pc2.getD (j - 1) 0 ∧ pc2.getD (j - 1) 0 ≤ 56 ∧ (pc2.getD (j - 1) 0 ≤ 28 ↔ j ≤ 24) := by decide +kernel
  exact hentries j hj h1

/-- R52: 48 of the 56 positions, each once. -/
theorem pc2_count (n : Nat) :
    pc2.count n = if 1 ≤ n ∧ n ≤ 56 ∧ n ∉ [9, 18, 22, 25, 35, 38, 43, 54] then 1 else 0 := by
  refine count_eq_ite_of_le_bound (P := (· ∉ [9, 18, 22, 25, 35, 38, 43, 54])) ?_ ?_ n
  · decide
  · decide +kernel

/-- Settles O14: a selection copies the bits its table names, the left half has the first 28, and the entries are
counted up to 56. -/
theorem pc2SelectsFromBothHalves : Obligations.Pc2SelectsFromBothHalves := by
  refine ⟨rfl, fun cd j h1 hj => desBit_pc2Select cd h1 hj, fun c d j h1 hj => ?_, pc2_count⟩
  obtain ⟨hlo, hhi, hleft⟩ := pc2_entry_bounds h1 hj
  rw [desBit_pc2Select _ h1 hj, desBit_append c d hhi]
  simp only [hleft]

/-! ### The function (R53, R56) -/

/-- Settles O15: the pseudocode is the definition, and the worked example is evaluated. -/
theorem ksIsTheFourStages : Obligations.KsIsTheFourStages :=
  ⟨fun _ _ => rfl, fun key i => Vector.getElem_ofFn i.isLt, by decide +kernel⟩

/-- R51: a round's bit is the PC1 bit that stood CUM[i] places further on in its half. -/
theorem desBit_rotatedCD (key : Key) (i : Nat) {p : Nat} (h1 : 1 ≤ p) (hp : p ≤ 56) :
    desBit (rotatedCD key i) p = desBit (pc1Select key) (28 * ((p - 1) / 28) + ((p - 1) % 28 + cum i) % 28 + 1) := by
  rw [rotatedCD, desBit_append _ _ hp]
  split_ifs with hleft
  · have hpos : 28 * ((p - 1) / 28) + ((p - 1) % 28 + cum i) % 28 + 1 = (p - 1 + cum i) % 28 + 1 := by omega
    rw [desBit_rotl28 _ (cum_le i) h1 hleft, desBit_halfC key (by omega) (by omega), hpos]
  · have hpos : 28 * ((p - 1) / 28) + ((p - 1) % 28 + cum i) % 28 + 1 = 28 + ((p - 28 - 1 + cum i) % 28 + 1) := by omega
    rw [desBit_rotl28 _ (cum_le i) (by omega) (by omega), desBit_halfD key (by omega) (by omega), hpos]

/-- R56: a subkey bit is the key bit that the three tables lead to. -/
theorem desBit_ks (key : Key) (i : Fin 16) {j : Nat} (h1 : 1 ≤ j) (hj : j ≤ 48) :
    desBit (ks key i) j = desBit key (sourceBit i j) := by
  obtain ⟨hlo, hhi, -⟩ := pc2_entry_bounds h1 hj
  rw [ks, desBit_pc2Select _ h1 hj, desBit_rotatedCD key i hlo hhi, desBit_pc1Select key (by omega) (by omega),
    Nat.add_sub_cancel, sourceBit]

/-- R56: the map of copied bits computed from the tables is the printed one. -/
theorem sourceBit_eq_sourceTable (i : Fin 16) {j : Nat} (h1 : 1 ≤ j) (hj : j ≤ 48) :
    sourceBit i j = sourceTable i j := by
  have hrows : ∀ i : Fin 16, ∀ j ≤ 48, 1 ≤ j → sourceBit i j = sourceTable i j := by decide +kernel
  exact hrows i j hj h1

theorem pc1Select_xor (a b : Key) : pc1Select (a ^^^ b) = pc1Select a ^^^ pc1Select b :=
  select_xor_distrib a b pc1

theorem rotatedCD_xor (a b : Key) (i : Nat) : rotatedCD (a ^^^ b) i = rotatedCD a i ^^^ rotatedCD b i := by
  simp only [rotatedCD, halfC, halfD, pc1Select_xor, BitVec.extractLsb'_xor, rotl28_xor_distrib]
  exact BitVec.xor_append.symm

/-- R56: every stage copies bits, so KS is linear. -/
theorem ks_xor (a b : Key) (i : Fin 16) : ks (a ^^^ b) i = ks a i ^^^ ks b i := by
  rw [ks, rotatedCD_xor]
  exact select_xor_distrib _ _ pc2

theorem ks_zero (i : Fin 16) : ks 0#64 i = 0#48 := by
  simpa using ks_xor 0#64 0#64 i

/-- Settles O18: each subkey bit by its way through the tables, linearity stage by stage, and the counts of the printed
table. -/
theorem ksCopiesTheBitsOfTheSourceTable : Obligations.KsCopiesTheBitsOfTheSourceTable := by
  refine ⟨fun key i j h1 hj => ?_, ks_xor, ks_zero, ?_⟩
  · rw [desBit_ks key i h1 hj, sourceBit_eq_sourceTable i h1 hj]
  · decide +kernel

/-! ### Parity bits and weak keys (R55, R58) -/

/-- R55: the mask of the key bits that are not parity bits has exactly the bits PC1 names. -/
theorem desBit_nonParityMask {n : Nat} (hn : n ≤ 64) : desBit 0xFEFEFEFEFEFEFEFE#64 n = decide (n ∈ pc1) := by
  have hbits : ∀ n ≤ 64, desBit 0xFEFEFEFEFEFEFEFE#64 n = decide (n ∈ pc1) := by decide +kernel
  exact hbits n hn

/-- R55: PC1 tells two keys apart exactly by the bits that are not parity bits. -/
theorem pc1Select_eq_iff {a b : Key} :
    pc1Select a = pc1Select b ↔ a &&& 0xFEFEFEFEFEFEFEFE#64 = b &&& 0xFEFEFEFEFEFEFEFE#64 := by
  refine select_eq_iff.trans ⟨fun h => eq_of_desBit_eq fun n _ hn => ?_, fun h n hmem => ?_⟩
  · rw [desBit_and, desBit_and, desBit_nonParityMask hn]
    by_cases hmem : n ∈ pc1
    · rw [h n hmem]
    · simp [hmem]
  · obtain ⟨-, hn, -⟩ := mem_pc1.1 hmem
    simpa [desBit_nonParityMask hn, hmem] using congrArg (desBit · n) h

theorem ks_eq_of_pc1Select_eq {a b : Key} (h : pc1Select a = pc1Select b) (i : Fin 16) : ks a i = ks b i := by
  simp only [ks, rotatedCD, halfC, halfD, h]

/-- R55: a mask inside the parity bits changes no subkey. -/
theorem ks_xor_parity (k : Key) {m : Key} (hm : m &&& 0xFEFEFEFEFEFEFEFE#64 = 0#64) (i : Fin 16) :
    ks k i = ks (k ^^^ m) i := by
  have hpc1 : pc1Select m = pc1Select 0#64 := pc1Select_eq_iff.2 (by simpa using hm)
  have hzero : ks m i = 0#48 := (ks_eq_of_pc1Select_eq hpc1 i).trans (ks_zero i)
  rw [ks_xor, hzero, BitVec.xor_zero]

/-- Settles O17: a mask inside the parity bits has the schedule of the key 0 and KS is linear; LOAD_KEY takes every key. -/
theorem parityBitsAreIgnored : Obligations.ParityBitsAreIgnored := by
  refine ⟨fun k m i hm => ks_xor_parity k hm i, fun k s => ⟨_, execLoadKey_accepted k s, rfl, rfl⟩,
    fun i => ⟨ks_zero i, ?_⟩⟩
  exact (ks_xor_parity 0#64 (m := 0x0101010101010101#64) (by decide) i).symm.trans (ks_zero i)

/-- A half that is all zeros or all ones. -/
def IsConstant (x : Half) : Prop := x = 0#28 ∨ x = 0xFFFFFFF#28

theorem rotl28_of_isConstant {x : Half} (h : IsConstant x) {n : Nat} (hn : n ≤ 28) : rotl28 x n = x := by
  have hends : ∀ n ≤ 28, rotl28 0#28 n = 0#28 ∧ rotl28 0xFFFFFFF#28 n = 0xFFFFFFF#28 := by decide +kernel
  obtain ⟨hzeros, hones⟩ := hends n hn
  obtain rfl | rfl := h
  · exact hzeros
  · exact hones

/-- R58: halves that a rotation does not move give the same subkey in every round. -/
theorem ks_of_constant_halves {key : Key} (hc : IsConstant (halfC key)) (hd : IsConstant (halfD key)) (i : Fin 16) :
    ks key i = pc2Select (pc1Select key) := by
  rw [ks, rotatedCD, rotl28_of_isConstant hc (cum_le i), rotl28_of_isConstant hd (cum_le i), halfC_append_halfD]

theorem pc1Select_eq_iff_halves {a b : Key} : pc1Select a = pc1Select b ↔ halfC a = halfC b ∧ halfD a = halfD b := by
  rw [← halfC_append_halfD a, ← halfC_append_halfD b, append_inj_iff]

/-- R58: the four named keys. -/
def weakKeys : List Key :=
  [0x0101010101010101#64, 0xFEFEFEFEFEFEFEFE#64, 0x1F1F1F1F0E0E0E0E#64, 0xE0E0E0E0F1F1F1F1#64]

theorem weakKeys_halves : weakKeys.map (fun key => (halfC key, halfD key)) =
    [(0#28, 0#28), (0xFFFFFFF#28, 0xFFFFFFF#28), (0#28, 0xFFFFFFF#28), (0xFFFFFFF#28, 0#28)] := by
  decide +kernel

/-- R58: the keys with constant halves are the named ones, up to parity. -/
theorem constant_halves_iff (key : Key) : IsConstant (halfC key) ∧ IsConstant (halfD key) ↔
    key &&& 0xFEFEFEFEFEFEFEFE#64 ∈ weakKeys.map (· &&& 0xFEFEFEFEFEFEFEFE#64) := by
  calc IsConstant (halfC key) ∧ IsConstant (halfD key)
    _ ↔ (halfC key, halfD key) ∈ weakKeys.map fun key => (halfC key, halfD key) := by
      simp only [weakKeys_halves, List.mem_cons, List.not_mem_nil, Prod.mk.injEq, IsConstant]
      tauto
    _ ↔ ∃ weak ∈ weakKeys, pc1Select weak = pc1Select key := by
      simp only [List.mem_map, Prod.mk.injEq, pc1Select_eq_iff_halves]
    _ ↔ _ := by simp only [List.mem_map, pc1Select_eq_iff]

/-- R58: what stands at the positions PC2 never names does not reach the subkey. -/
theorem pc2Select_xor_dropped (cd : CD) {m : CD}
    (hm : ∀ p, p ∉ [9, 18, 22, 25, 35, 38, 43, 54] → desBit m p = false) : pc2Select (cd ^^^ m) = pc2Select cd := by
  have hdropped : ∀ n ∈ pc2, n ∉ [9, 18, 22, 25, 35, 38, 43, 54] := by decide
  exact select_eq_iff.2 fun n hn => by rw [desBit_xor, hm n (hdropped n hn), Bool.xor_false]

/-- Settles O20: PC2 names none of the dropped positions, the printed rows are evaluated, and a constant half is one
that no rotation moves. -/
theorem weakKeysGiveEqualSubkeys : Obligations.WeakKeysGiveEqualSubkeys :=
  ⟨fun cd _ hm => pc2Select_xor_dropped cd hm, by decide +kernel, by decide +kernel, constant_halves_iff,
    fun _ hc hd i j => (ks_of_constant_halves hc hd i).trans (ks_of_constant_halves hc hd j).symm⟩

/-! ### The two sweeps (R54) -/

theorem idx_reverse_eq_rev (r : Fin 16) : idx .reverse r = r.rev :=
  Fin.ext (by rw [idx_reverse_val, Fin.val_rev]; omega)

/-- R54: in either direction the mapping is its own inverse. -/
theorem idx_involutive (dir : Direction) : Function.Involutive (idx dir) := by
  intro r
  cases dir with
  | forward => rfl
  | reverse => rw [idx_reverse_eq_rev, idx_reverse_eq_rev, Fin.rev_rev]

/-- R19, R54: a keyed block answers a list of reads in one direction by indexing its schedule. -/
theorem KeyedWith.run_reads {key : Key} {s : State} (hs : KeyedWith key s) (dir : Direction) (rounds : List (Fin 16)) :
    ∃ t, run (rounds.map fun r : Fin 16 => .request (encode (.readSubkey dir r.val))) s =
      .next (t, rounds.map fun r : Fin 16 => (ks key (idx dir r)).setWidth 52) := by
  induction rounds generalizing s with
  | nil => exact ⟨s, rfl⟩
  | cons r rest ih =>
    have hread : handleEvent (.request (encode (.readSubkey dir r))) s =
        .next { s with rsp := some ((ks key (idx dir r)).setWidth 52) } :=
      (serve_encode ((wellFormed_readSubkey dir r).2 (Nat.le_of_lt_succ r.isLt)) s).trans (hs.exec_readSubkey dir r)
    obtain ⟨t, hrest⟩ := ih (s := { s with rsp := some ((ks key (idx dir r)).setWidth 52) }) hs
    exact ⟨t, run_cons_of_next hread hrest⟩

/-- R54: the sweep of the 16 rounds in one direction. -/
theorem KeyedWith.run_sweep {key : Key} {s : State} (hs : KeyedWith key s) (dir : Direction) :
    ∃ t, run ((List.range 16).map fun r => .request (encode (.readSubkey dir r))) s =
      .next (t, (((List.finRange 16).map (idx dir)).map (ks key)).map (BitVec.setWidth 52)) := by
  rw [← List.map_coe_finRange_eq_range]
  simp only [List.map_map]
  exact hs.run_reads dir (List.finRange 16)

/-- Settles O16: each direction is its own inverse, and the reverse sweep reads the entries of the mirrored rounds. -/
theorem decryptionSweepIsTheEncryptionSweepReversed : Obligations.DecryptionSweepIsTheEncryptionSweepReversed := by
  refine ⟨fun r => ⟨rfl, idx_reverse_val r, ?_⟩, fun dir => (idx_involutive dir).bijective,
    fun r m hm => Fin.ext hm.symm, rfl, rfl, rfl, fun key s hs => ?_⟩
  · revert r; decide
  · obtain ⟨te, hforward⟩ := hs.run_sweep .forward
    obtain ⟨td, hreverse⟩ := hs.run_sweep .reverse
    have hsame : (List.finRange 16).map (idx .forward) = List.finRange 16 := List.map_id _
    have hmirror : (List.finRange 16).map (idx .reverse) = (List.finRange 16).reverse := by
      rw [List.finRange_reverse]
      exact List.map_congr_left fun r _ => idx_reverse_eq_rev r
    rw [hsame, ← List.ofFn_eq_map] at hforward
    rw [hmirror, List.map_reverse, ← List.ofFn_eq_map] at hreverse
    exact ⟨te, td, hforward, hreverse⟩

end Sys2Proof.Machine

namespace Sys2Proof.Machine

/-! ### The four arms (41_commands.md R59, R63) -/

/-- R59: a request is served as the command it decodes to. -/
theorem serve_command {word : Request} {i : Instr} (h : decode word = .command i) (s : State) :
    serve word s = exec i s := by
  simp only [serve, h]

/-- R37: the direction of a request is its bit 68. -/
theorem ofBit_dir_eq_ite (r : Request) : Direction.ofBit r.dir = if r.getLsbD 68 then .reverse else .forward := by
  split_ifs with hbit
  · exact ofBit_dir_eq_reverse_iff.2 hbit
  · cases hdir : Direction.ofBit r.dir with
    | forward => rfl
    | reverse => exact absurd (ofBit_dir_eq_reverse_iff.1 hdir) hbit

/-- R59: the arm of a request, by the tests of R39 on OPC and the must-be-zero fields. -/
theorem serve_eq_arms (r : Request) (s : State) :
    serve r s =
      if r.opc = 0x0#4 ∧ r.extractLsb' 0 76 = 0#76 then exec .status s
      else if r.opc = 0x1#4 ∧ r.extractLsb' 64 8 = 0#8 then exec (.loadKey r.klen.toNat r.keydata) s
      else if r.opc = 0x2#4 ∧ r.extractLsb' 69 7 = 0#7 ∧ r.extractLsb' 0 64 = 0#64 then
        exec (.readSubkey (Direction.ofBit r.dir) r.rnd.toNat) s
      else .next { s with rsp := some 0x3000000000000#52 } := by
  split_ifs with hstatus hload hread
  · exact serve_command (decode_eq_status_iff.2 hstatus) s
  · exact serve_command (decode_eq_loadKey_iff.2 ⟨hload, rfl, rfl⟩) s
  · exact serve_command (decode_eq_readSubkey_iff.2 ⟨hread, rfl, rfl⟩) s
  · cases hd : decode r with
    | rejected why => exact serve_rejected hd s
    | command i =>
      cases i with
      | status => exact absurd (decode_eq_status_iff.1 hd) hstatus
      | loadKey klen key => exact absurd (decode_eq_loadKey_iff.1 hd).1 hload
      | readSubkey dir rnd => exact absurd (decode_eq_readSubkey_iff.1 hd).1 hread

/-- Settles O25: the arms by the tests on the word, and every arm that completes ends in a response. -/
theorem requestReachesExactlyOneArm : Obligations.RequestReachesExactlyOneArm := by
  obtain ⟨-, hresponds, -⟩ := noCommandReadsTheResponseRegister
  refine ⟨fun r s => ?_, hresponds⟩
  rw [← ofBit_dir_eq_ite]
  exact serve_eq_arms r s

/-! ### The commands one by one (R60 to R62) -/

/-- R60: STATUS answers zext(VALID). -/
theorem exec_status (s : State) : exec .status s = .next { s with rsp := some (s.valid.setWidth 52) } := by
  rw [← packResponse_validData]
  rfl

/-- R60: an OPC 0 word is STATUS only when no other bit is set. -/
theorem below_opc_ne_zero {r : Request} (hopc : r.opc = 0x0#4) (hne : r ≠ 0#80) : r.extractLsb' 0 76 ≠ 0#76 := by
  intro hz
  obtain ⟨-, hword⟩ := decode_eq_command_iff.1 (decode_eq_status_iff.2 ⟨hopc, hz⟩)
  exact hne hword.symm

/-- Settles O27: VALID is the low bit of the response, 0 at reset and 1 after a load. -/
theorem statusReportsValid : Obligations.StatusReportsValid := by
  have hstatus : decode 0x00000000000000000000#80 = .command .status := by decide
  refine ⟨exec_status, fun s => (serve_command hstatus s).trans (exec_status s), fun r s hopc hne => ?_,
    fun s t r ht hr => ?_, exec_status State.reset, fun key s t u ht hu => ?_⟩
  · have hr : r.opc = 0x0#4 := hopc
    simp [serve_eq_arms, hr, below_opc_ne_zero hr hne]
  · have hhigh : ∀ v : Flag, (v.setWidth 52).extractLsb' 1 47 = 0#47 := by decide
    cases (exec_status s).symm.trans ht
    cases hr
    exact hhigh s.valid
  · cases (execLoadKey_accepted key s).symm.trans ht
    cases (exec_status _).symm.trans hu
    rfl

/-- R61: LOAD_KEY of length 8 makes the block keyed with the whole schedule of its key. -/
theorem exec_loadKey_accepted (key : Key) (s : State) : exec (.loadKey 8 key) s =
    .next { s with key := some key, sk := Vector.ofFn fun i => some (ks key i), valid := 1#1, rsp := some 0#52 } := by
  have hsk : (schedule key).map some = Vector.ofFn fun i => some (ks key i) := Vector.map_ofFn
  rw [← hsk]
  exact execLoadKey_accepted key s

/-- R61, R69: LOAD_KEY of any other length leaves the block without a key. -/
theorem exec_loadKey_rejected {klen : Nat} (h : klen ≠ 8) (key : Key) (s : State) : exec (.loadKey klen key) s =
    .next { s with key := none, sk := Vector.replicate 16 none, valid := 0#1, rsp := some 0x1000000000000#52 } := by
  rw [← packResponse_errKeyLength]
  exact execLoadKey_rejected h key s

/-- R62, R67: READ_SUBKEY of a block that is not keyed. -/
theorem exec_readSubkey_unkeyed {rnd : Nat} (h : rnd < 16) {s : State} (hv : s.valid = 0#1) (dir : Direction) :
    exec (.readSubkey dir rnd) s = .next { s with rsp := some 0x2000000000000#52 } := by
  rw [← packResponse_errNotKeyed]
  exact execReadSubkey_unkeyed h hv dir

/-- The last subkey of the worked example (95_test_vectors.md section 2.1). -/
theorem ks_example_last : ks 0x133457799BBCDFF1#64 15 = 0xCB3D8B0E17F5#48 := by decide +kernel

/-- Settles O28: each load writes KEY, SK and VALID whole, so what it leaves is told without the state before. -/
theorem loadKeyReplacesTheWholeSchedule : Obligations.LoadKeyReplacesTheWholeSchedule := by
  obtain ⟨-, -, hfirst⟩ := ksIsTheFourStages
  have hword : decode 0x1800133457799BBCDFF1#80 = .command (.loadKey 8 0x133457799BBCDFF1#64) := by decide
  refine ⟨exec_loadKey_accepted, fun klen key s _ hk => exec_loadKey_rejected hk key s, fun r s hopc => ?_,
    fun key s t u ht hu => ?_, fun klen rnd key dir s t _ hk hr ht => ?_, ks_zero, fun s => ?_⟩
  · have hr : r.opc = 0x1#4 := hopc
    simp [serve_eq_arms, hr, Request.klen, Request.keydata]
  · cases (exec_loadKey_accepted key s).symm.trans ht
    cases (exec_loadKey_accepted key _).symm.trans hu
    rfl
  · cases (exec_loadKey_rejected hk key s).symm.trans ht
    exact exec_readSubkey_unkeyed (Nat.lt_succ_of_le hr) rfl dir
  · refine ⟨_, (serve_command hword s).trans (execLoadKey_accepted _ s), rfl, ?_, ?_⟩
    · rw [readEntry_respond, readEntry_loadSchedule, hfirst]
    · rw [readEntry_respond, readEntry_loadSchedule, ks_example_last]

/-- R54, R62: a read depends on its direction and round only through the entry they name. -/
theorem exec_readSubkey_congr {dir dir' : Direction} {rnd rnd' : Fin 16} (h : idx dir rnd = idx dir' rnd') (s : State) :
    exec (.readSubkey dir rnd) s = exec (.readSubkey dir' rnd') s := by
  simp only [exec, execReadSubkey, Fin.is_lt, dite_true, Fin.eta, h]

/-- R62: READ_SUBKEY changes nothing but RSP. -/
theorem exec_readSubkey_frame {dir : Direction} {rnd : Nat} {s t : State} (h : exec (.readSubkey dir rnd) s = .next t) :
    t = { s with rsp := t.rsp } := by
  obtain ⟨hport, hregs⟩ := onlyLoadKeyWritesKeySkAndValid _ s t h
  obtain ⟨hkey, hsk, hvalid⟩ := hregs nofun
  rw [← hkey, ← hsk, ← hvalid, ← hport]

/-- Settles O29: a read answers from VALID and one entry, which neither a read nor an event that keeps the key writes. -/
theorem readSubkeyReturnsTheEntry : Obligations.ReadSubkeyReturnsTheEntry := by
  have hword : decode 0x20100000000000000000#80 = .command (.readSubkey .reverse 0) := by decide
  refine ⟨fun dir rnd s v hv he => ?_, fun dir rnd s hv => exec_readSubkey_unkeyed rnd.isLt hv dir,
    fun r s hopc => ?_, fun r m s hm => ?_, fun dir rnd between s t u rs hkeeps ht hrun => ?_, fun s t ht => ?_⟩
  · rw [← packResponse_ok]
    exact execReadSubkey_keyed rnd.isLt hv he
  · have hr : r.opc = 0x2#4 := hopc
    rw [← ofBit_dir_eq_ite]
    simp [serve_eq_arms, hr, Request.rnd]
  · have hmirror : idx .forward r = idx .reverse m := by
      ext
      rw [idx_reverse_val, hm]
      exact (Nat.sub_sub_self (Nat.le_of_lt_succ r.isLt)).symm
    exact exec_readSubkey_congr hmirror s
  · have hu : u = { s with rsp := u.rsp } := by
      rw [run_keepsKey hkeeps hrun, exec_readSubkey_frame ht]
    refine ⟨t, ?_, rfl⟩
    rw [hu, exec_with_rsp, ht]
  · cases (execLoadKey_accepted _ s).symm.trans ht
    have hread := (KeyedWith.of_loadSchedule 0x133457799BBCDFF1#64 .ok 0#48 s).exec_readSubkey .reverse 0
    have hentry : idx .reverse 0 = 15 := rfl
    rw [hentry, ks_example_last] at hread
    exact (serve_command hword _).trans hread

/-! ### The step (R13, R21, R59) -/

/-- Settles O23: a step handles the port's oldest event, and serves it if it is a request. -/
theorem stepRunsTheDecodedCommand : Obligations.StepRunsTheDecodedCommand := fun _ _ _ hp =>
  ⟨fun _ hd => (step_eq_handleEvent hp).trans (serve_command hd _),
    fun _ hd => (step_eq_handleEvent hp).trans (serve_rejected hd _)⟩

/-- R21: the request presented ahead of all others is the one the next step serves. -/
theorem step_presentRequest (word : Request) (s : State) : step (presentRequest word s) = serve word s :=
  step_eq_handleEvent (presentRequest_port s word)

theorem withFetchWord_toNat (word : Request) (s : State) : s.withFetchWord 80 word.toNat = presentRequest word s := by
  rw [State.withFetchWord, Nat.mod_eq_of_lt word.isLt, BitVec.ofNat_toNat, BitVec.setWidth_eq]

/-- Settles O24: the presented word is served next, and a command's word is served as the command. -/
theorem presentedWordIsTheNextCommand : Obligations.PresentedWordIsTheNextCommand := by
  intro s i hi
  rw [withFetchWord_toNat, step_presentRequest, serve_encode hi]

/-- Every command has its meaning (R59): none is refused. -/
theorem exec_ne_refused (i : Instr) (s : State) (why : Refusal) : exec i s ≠ .refused why := by
  cases i with
  | status => exact nofun
  | loadKey klen key =>
    simp only [exec, execLoadKey]
    split_ifs <;> exact nofun
  | readSubkey dir rnd =>
    simp only [exec, execReadSubkey]
    split_ifs
    · exact nofun
    · split <;> exact nofun
    · exact nofun

theorem handleEvent_ne_refused (e : PortEvent) (s : State) (why : Refusal) : handleEvent e s ≠ .refused why := by
  cases e with
  | reset => exact nofun
  | request word =>
    cases hd : decode word with
    | command i =>
      rw [handleEvent, serve_command hd]
      exact exec_ne_refused i s why
    | rejected reason =>
      rw [handleEvent, serve_rejected hd]
      exact nofun

/-- Settles O26: an empty port is refused, and no event is. -/
theorem stepNeedsAnEventOnThePort : Obligations.StepNeedsAnEventOnThePort := by
  intro s
  cases hp : s.port with
  | nil => simp [step_of_port_nil hp]
  | cons e rest => simp [step_eq_handleEvent hp, handleEvent_ne_refused]

end Sys2Proof.Machine

namespace Sys2Proof.Machine

/-! ### Which status a request is answered with (60_exceptions.md R65 to R70) -/

/-- R70: the decode check, and then the command's own check, which reads KLEN or VALID. -/
def requestStatus (d : Decoded) (valid : Flag) : Status :=
  match d with
  | .rejected _ => .errIllegalCommand
  | .command .status => .ok
  | .command (.loadKey klen _) => if klen = Config.keyBytes then .ok else .errKeyLength
  | .command (.readSubkey _ _) => if valid = 0#1 then .errNotKeyed else .ok

theorem requestStatus_eq_errKeyLength_iff {d : Decoded} {valid : Flag} :
    requestStatus d valid = .errKeyLength ↔ ∃ klen key, d = .command (.loadKey klen key) ∧ klen ≠ 8 := by
  fun_cases requestStatus d valid <;> simp_all [Config.keyBytes]

theorem requestStatus_eq_errNotKeyed_iff {d : Decoded} {valid : Flag} :
    requestStatus d valid = .errNotKeyed ↔ ∃ dir rnd, d = .command (.readSubkey dir rnd) ∧ valid = 0#1 := by
  fun_cases requestStatus d valid <;> simp_all

theorem requestStatus_eq_errIllegalCommand_iff {d : Decoded} {valid : Flag} :
    requestStatus d valid = .errIllegalCommand ↔ ∃ why, d = .rejected why := by
  fun_cases requestStatus d valid <;> simp

/-- R65: no two statuses share a code. -/
theorem Status.code_inj {a b : Status} : a.code = b.code ↔ a = b := by
  cases a <;> cases b <;> decide

theorem Status.code_toNat_le (st : Status) : st.code.toNat ≤ 3 := by
  cases st <;> decide

/-- A request that is answered gets the status its checks give, and an error carries no data (R65, R70). -/
theorem serve_rsp_status {word : Request} {s t : State} (h : serve word s = .next t) :
    ∃ data, t.rsp = some (packResponse (requestStatus (decode word) s.valid) data) ∧
      (requestStatus (decode word) s.valid ≠ .ok → data = 0#48) := by
  obtain ⟨i, hd, hi⟩ | ⟨why, hd, rfl⟩ := serve_cases h
  · rw [hd]
    obtain ⟨rfl, rfl⟩ | ⟨key, rfl, rfl⟩ | ⟨klen, key, rfl, hk, rfl⟩ | ⟨dir, rnd, rfl, hr, hv, rfl⟩ |
      ⟨dir, rnd, subkey, hr, rfl, hv, he, rfl⟩ := exec_cases hi
    · exact ⟨validData s.valid, rfl, fun hne => absurd rfl hne⟩
    · exact ⟨0#48, rfl, fun _ => rfl⟩
    · exact ⟨0#48, by simp [requestStatus, hk], fun _ => rfl⟩
    · exact ⟨0#48, by simp [requestStatus, hv], fun _ => rfl⟩
    · exact ⟨subkey, by simp [requestStatus, hv], fun hne => absurd (by simp [requestStatus, hv]) hne⟩
  · rw [hd]
    exact ⟨0#48, rfl, fun _ => rfl⟩

/-- An error response tells which check failed. -/
theorem serve_rsp_eq_error_iff {word : Request} {s t : State} (h : serve word s = .next t) {st : Status}
    (hst : st ≠ .ok) : t.rsp = some (packResponse st 0#48) ↔ requestStatus (decode word) s.valid = st := by
  obtain ⟨data, hrsp, hdata⟩ := serve_rsp_status h
  rw [hrsp, Option.some_inj]
  constructor
  · intro heq
    have hcode := congrArg responseStatus heq
    rwa [responseStatus_packResponse, responseStatus_packResponse, Status.code_inj] at hcode
  · rintro rfl
    rw [hdata hst]

theorem serve_rsp_errKeyLength_iff {word : Request} {s t : State} (h : serve word s = .next t) :
    t.rsp = some 0x1000000000000#52 ↔ ∃ klen key, decode word = .command (.loadKey klen key) ∧ klen ≠ 8 := by
  rw [← packResponse_errKeyLength, serve_rsp_eq_error_iff h (st := .errKeyLength) nofun,
    requestStatus_eq_errKeyLength_iff]

theorem serve_rsp_errNotKeyed_iff {word : Request} {s t : State} (h : serve word s = .next t) :
    t.rsp = some 0x2000000000000#52 ↔ ∃ dir rnd, decode word = .command (.readSubkey dir rnd) ∧ s.valid = 0#1 := by
  rw [← packResponse_errNotKeyed, serve_rsp_eq_error_iff h (st := .errNotKeyed) nofun,
    requestStatus_eq_errNotKeyed_iff]

theorem serve_rsp_errIllegalCommand_iff {word : Request} {s t : State} (h : serve word s = .next t) :
    t.rsp = some 0x3000000000000#52 ↔ ∃ why, decode word = .rejected why := by
  rw [← packResponse_errIllegalCommand, serve_rsp_eq_error_iff h (st := .errIllegalCommand) nofun,
    requestStatus_eq_errIllegalCommand_iff]

/-- R62, R67, R70: READ_SUBKEY of a request while not keyed. A decoded round is below 16. -/
theorem serve_readSubkey_unkeyed {word : Request} {dir : Direction} {rnd : Nat}
    (hd : decode word = .command (.readSubkey dir rnd)) {s : State} (hv : s.valid = 0#1) :
    serve word s = .next { s with rsp := some 0x2000000000000#52 } :=
  (serve_command hd s).trans (exec_readSubkey_unkeyed (decode_readSubkey_round hd) hv dir)

/-- Settles O42: the status field is the code of the checks' status, and codes tell statuses apart. -/
theorem statusCodesAreRaisedExactlyWhenStated : Obligations.StatusCodesAreRaisedExactlyWhenStated := by
  intro r s t h
  obtain ⟨data, hrsp, hdata⟩ := serve_rsp_status h
  have hstatus := responseStatus_packResponse (requestStatus (decode r) s.valid) data
  have hrdata := responseData_packResponse (requestStatus (decode r) s.valid) data
  rw [responseStatus] at hstatus
  rw [responseData] at hrdata
  refine ⟨_, hrsp, ?_⟩
  rw [hstatus, hrdata]
  exact ⟨Status.code_toNat_le _, fun hne => hdata fun hok => hne (congrArg Status.code hok),
    (Status.code_inj (b := .errKeyLength)).trans requestStatus_eq_errKeyLength_iff,
    (Status.code_inj (b := .errNotKeyed)).trans requestStatus_eq_errNotKeyed_iff,
    (Status.code_inj (b := .errIllegalCommand)).trans requestStatus_eq_errIllegalCommand_iff⟩

/-- Settles O43: the command's own check, and the key held after a run from reset. -/
theorem notKeyedIsRaisedExactlyWhenUnkeyed : Obligations.NotKeyedIsRaisedExactlyWhenUnkeyed := by
  refine ⟨fun dir rnd s hv => exec_readSubkey_unkeyed rnd.isLt hv dir, fun r s t => serve_rsp_errNotKeyed_iff,
    fun events t rs h => ?_⟩
  rw [(run_reset_holds h).valid]
  exact ⟨keyedFlag_eq_zero, fun hnone => congrArg keyedFlag hnone⟩

/-- Settles O44: each error response tells the command that raised it, whose effect is known. -/
theorem errorsHaveTheirStatedEffect : Obligations.ErrorsHaveTheirStatedEffect := by
  obtain ⟨-, hunkeyed⟩ := stepKeepsScheduleMatchingKey
  refine ⟨fun r s t h hrsp => ?_, fun r s t h hrsp => ?_, fun r s t h hrsp => ?_, fun r s k sk hv t h => ?_⟩
  · obtain ⟨klen, key, hd, hk⟩ := (serve_rsp_errKeyLength_iff h).1 hrsp
    obtain ⟨⟨hvalid, hkey, hsk⟩, -⟩ := handleEvent_dropsKey (.inr ⟨r, klen, key, rfl, hd, hk⟩) h
    exact ⟨hkey, hsk, hvalid⟩
  · obtain ⟨dir, rnd, hd, hv⟩ := (serve_rsp_errNotKeyed_iff h).1 hrsp
    cases h.symm.trans (serve_readSubkey_unkeyed hd hv)
    exact ⟨rfl, hv⟩
  · obtain ⟨why, hd⟩ := (serve_rsp_errIllegalCommand_iff h).1 hrsp
    cases h.symm.trans (serve_rejected hd s)
    rfl
  · obtain ⟨u, hu, hrsp, -⟩ := hunkeyed r s k sk hv t h
    exact ⟨u, hu, hrsp⟩

/-- Settles O45: the arms of the decoded word, each with its one check. -/
theorem decodeCheckComesFirst : Obligations.DecodeCheckComesFirst := by
  intro r s
  cases hd : decode r with
  | rejected why => exact serve_rejected hd s
  | command i =>
    cases i with
    | status => exact ⟨_, _, serve_command hd s, rfl, responseStatus_packResponse .ok _⟩
    | loadKey klen key =>
      obtain rfl | hk := eq_or_ne klen 8
      · exact ⟨_, (serve_command hd s).trans (exec_loadKey_accepted key s), rfl⟩
      · exact ⟨_, (serve_command hd s).trans (exec_loadKey_rejected hk key s), congrArg some (if_neg hk).symm⟩
    | readSubkey dir rnd =>
      split_ifs with hv
      · exact serve_readSubkey_unkeyed hd hv
      · intro t ht
        obtain ⟨data, hrsp, -⟩ := serve_rsp_status ht
        have hok : requestStatus (decode r) s.valid = .ok := by simp [requestStatus, hd, hv]
        rw [hok, packResponse_ok] at hrsp
        exact ⟨data, hrsp⟩

/-! ### Every command completes (R64, R73, R74) -/

/-- Settles O30: a readable block answers the command's own word. -/
theorem everyCommandCompletes : Obligations.EveryCommandCompletes := by
  intro i s hi hs
  obtain ⟨t, ht⟩ := hs.handleEvent_next (.request (encode i))
  have hexec : exec i s = .next t := (serve_encode hi s).symm.trans ht
  obtain ⟨r, hr⟩ := exec_rsp hexec
  obtain ⟨hport, -⟩ := onlyLoadKeyWritesKeySkAndValid i s t hexec
  exact ⟨t, r, hexec, hr, hport⟩

/-- R73: READ_SUBKEY of a round no request carries. -/
theorem execReadSubkey_roundOutOfRange {rnd : Nat} (h : 15 < rnd) (dir : Direction) (s : State) :
    execReadSubkey dir rnd s = .fault .roundOutOfRange :=
  dif_neg (Nat.not_lt.2 h)

/-- R73: a round below 16 is answered or meets an empty entry. -/
theorem execReadSubkey_ne_roundOutOfRange {rnd : Nat} (h : rnd < 16) (dir : Direction) (s : State) :
    execReadSubkey dir rnd s ≠ .fault .roundOutOfRange := by
  by_cases hv : s.valid = 0#1
  · rw [execReadSubkey_unkeyed h hv]
    exact nofun
  · have hkeyed : s.valid = 1#1 := (valid_ne_zero _).1 hv
    cases he : readEntry s (idx dir ⟨rnd, h⟩) with
    | none =>
      rw [execReadSubkey_readOfNone h hkeyed he]
      exact nofun
    | some subkey =>
      rw [execReadSubkey_keyed h hkeyed he]
      exact nofun

theorem exec_ne_roundOutOfRange {i : Instr} (hi : i.wellFormed = true) (s : State) :
    exec i s ≠ .fault .roundOutOfRange := by
  cases i with
  | status => exact nofun
  | loadKey klen key =>
    obtain rfl | hk := eq_or_ne klen 8
    · rw [exec_loadKey_accepted]
      exact nofun
    · rw [exec_loadKey_rejected hk]
      exact nofun
  | readSubkey dir rnd =>
    exact execReadSubkey_ne_roundOutOfRange (Nat.lt_succ_of_le ((wellFormed_readSubkey dir rnd).1 hi)) dir s

/-- Settles O46: a decoded command is well formed, so its round is in range; the table entries are looked through. -/
theorem roundAboveFifteenFaults : Obligations.RoundAboveFifteenFaults := by
  refine ⟨fun dir rnd s h => execReadSubkey_roundOutOfRange h dir s,
    fun dir rnd s h => exec_ne_roundOutOfRange ((wellFormed_readSubkey dir rnd).2 h) s, fun r s => ?_,
    by decide, by decide⟩
  cases hd : decode r with
  | command i =>
    obtain ⟨hi, -⟩ := decode_eq_command_iff.1 hd
    rw [serve_command hd]
    exact exec_ne_roundOutOfRange hi s
  | rejected why =>
    rw [serve_rejected hd]
    exact nofun

end Sys2Proof.Machine

namespace Sys2Proof.Machine

/-! ### Reset and complete runs (70_reset_and_hazards.md R77, R78, R85, R86) -/

theorem Coherent.reset : Coherent State.reset := ⟨none, Holds.reset⟩

/-- Settles O35: the reset state holds no key at all, and every other invariant follows. -/
theorem resetStateIsCoherent : Obligations.ResetStateIsCoherent :=
  ⟨Coherent.reset.scheduleMatchesKey, Coherent.reset, Coherent.reset.readable, Holds.reset⟩

/-- Settles O50: the step hands the reset to the block, which puts every register at its reset value. -/
theorem resetSetsEveryRegister : Obligations.ResetSetsEveryRegister :=
  ⟨fun _ _ hp => step_eq_handleEvent hp, rfl, rfl, readEntry_assertReset State.reset, rfl⟩

theorem Readable.handleEvent {e : PortEvent} {s t : State} (hs : Readable s) (h : handleEvent e s = .next t) :
    Readable t :=
  handleEvent_keeps (R := fun _ => Readable) (held := none) (fun held _ hu => Coherent.readable ⟨held, hu⟩)
    (fun _ _ _ _ hu => hu) hs h

theorem requestCount_cons (e : PortEvent) (rest : List PortEvent) :
    requestCount (e :: rest) = requestCount [e] + requestCount rest := by
  cases e with
  | reset => exact (Nat.zero_add _).symm
  | request word => exact Nat.add_comm _ _

/-- R59: a request ends in one response, a reset in none. -/
theorem length_responsesOf {e : PortEvent} {s t : State} (h : handleEvent e s = .next t) :
    (responsesOf e t).length = requestCount [e] := by
  cases e with
  | reset => rfl
  | request word =>
    obtain ⟨-, hresponds, -⟩ := noCommandReadsTheResponseRegister
    obtain ⟨r, hr⟩ := Option.ne_none_iff_exists'.1 (hresponds word s t h)
    simp [responsesOf, hr, requestCount]

/-- Settles O55: every event of a readable state is answered, leaves a readable state, and counts as it responds. -/
theorem everyRunAnswersEachRequestOnce : Obligations.EveryRunAnswersEachRequestOnce := by
  intro events
  induction events with
  | nil => exact fun s hs => ⟨s, [], rfl, rfl, hs⟩
  | cons e rest ih =>
    intro s hs
    obtain ⟨s', he⟩ := hs.handleEvent_next e
    obtain ⟨t, later, hrun, hlength, ht⟩ := ih s' (hs.handleEvent he)
    refine ⟨t, _, run_cons_of_next he hrun, ?_, ht⟩
    rw [List.length_append, length_responsesOf he, hlength, ← requestCount_cons]

/-- Settles O51: no event touches the port, and the unkeyed block that a reset leaves is observed as the reset state. -/
theorem resetForgetsEverythingBefore : Obligations.ResetForgetsEverythingBefore := by
  intro before after s hs
  obtain ⟨t, rs, hbefore, -, -⟩ := everyRunAnswersEachRequestOnce before s hs
  have ht : Readable (assertReset t) := (Shows.of_unkeyed (assertReset_valid t)).readable
  obtain ⟨u, us, hafter, -, -⟩ := everyRunAnswersEachRequestOnce after (assertReset t) ht
  have hwhole : run (before ++ .reset :: after) s = .next (u, rs ++ us) :=
    run_append hbefore (run_cons_of_next rfl hafter)
  have hforgets : observation (run after State.reset) = observation (run after (assertReset t)) :=
    unkeyedContentsCannotBeObserved after State.reset (assertReset t) rfl (assertReset_valid t)
  refine ⟨t, rs, hbefore, by rw [assertReset, assertReset, run_port hbefore], ?_⟩
  rw [hwhole, hforgets, hafter]
  rfl

/-! ### What the history of a list of events leaves (R79) -/

theorem keyAfterAll_append (held : Option Key) (first second : List PortEvent) :
    keyAfterAll held (first ++ second) = keyAfterAll (keyAfterAll held first) second :=
  List.foldl_append

theorem answers_append (held : Option Key) (first second : List PortEvent) :
    answers held (first ++ second) = answers held first ++ answers (keyAfterAll held first) second := by
  induction first generalizing held with
  | nil => rfl
  | cons e rest ih =>
    rw [List.cons_append, answers_cons, ih, ← List.append_assoc, ← answers_cons]
    rfl

theorem keyAfterAll_keepsKey {events : List PortEvent} (hkeeps : ∀ e ∈ events, e.keepsKey = true)
    (held : Option Key) : keyAfterAll held events = held := by
  induction events with
  | nil => rfl
  | cons e rest ih =>
    obtain ⟨he, hrest⟩ := List.forall_mem_cons.1 hkeeps
    rw [keyAfterAll, List.foldl_cons, keyAfter_keepsKey he]
    exact ih hrest

/-- R79: without a successful LOAD_KEY no key is ever held. -/
theorem keyAfterAll_none_of_no_load {events : List PortEvent} (hnone : ∀ e ∈ events, ∀ key, ¬ e.loadsKey key) :
    keyAfterAll none events = none := by
  induction events with
  | nil => rfl
  | cons e rest ih =>
    obtain ⟨he, hrest⟩ := List.forall_mem_cons.1 hnone
    have hheld : keyAfter none e = none := by
      obtain ⟨key, hload⟩ | hdrop | hkeep := event_kinds e
      · exact absurd hload (he key)
      · exact keyAfter_dropsKey hdrop none
      · exact keyAfter_keepsKey hkeep none
    rw [keyAfterAll, List.foldl_cons, hheld]
    exact ih hrest

/-! ### The history of the commands' own words (R60 to R62) -/

theorem decode_encode_loadKey {klen : Nat} (h : klen ≤ 15) (key : Key) :
    decode (encode (.loadKey klen key)) = .command (.loadKey klen key) :=
  decodeOfEncodeIsTheCommand _ ((wellFormed_loadKey klen key).2 h)

theorem decode_encode_readSubkey (dir : Direction) (rnd : Fin 16) :
    decode (encode (.readSubkey dir rnd)) = .command (.readSubkey dir rnd) :=
  decodeOfEncodeIsTheCommand _ ((wellFormed_readSubkey dir rnd).2 (Nat.le_of_lt_succ rnd.isLt))

theorem loadsKey_encode (key : Key) : (PortEvent.request (encode (.loadKey 8 key))).loadsKey key :=
  ⟨_, rfl, decode_encode_loadKey (by decide) key⟩

section Answers

variable (held : Option Key) (key : Key) (dir : Direction) (rnd : Fin 16) (rest : List PortEvent)

theorem answers_reset : answers held (.reset :: rest) = answers none rest := rfl

theorem answers_loadKey :
    answers held (.request (encode (.loadKey 8 key)) :: rest) = 0#52 :: answers (some key) rest := by
  have hd := decode_encode_loadKey (klen := 8) (by decide) key
  simp [answers, answer, keyAfter, hd, Config.keyBytes, packResponse_ok]

theorem answers_loadKey_rejected {klen : Nat} (h : klen ≤ 15) (hk : klen ≠ 8) :
    answers held (.request (encode (.loadKey klen key)) :: rest) = 0x1000000000000#52 :: answers none rest := by
  simp [answers, answer, keyAfter, decode_encode_loadKey h key, Config.keyBytes, hk, packResponse_errKeyLength]

theorem answers_readSubkey_keyed :
    answers (some key) (.request (encode (.readSubkey dir rnd)) :: rest) =
      (ks key (idx dir rnd)).setWidth 52 :: answers (some key) rest := by
  have hd := decode_encode_readSubkey dir rnd
  simp [answers, answer_readSubkey_keyed hd rnd.isLt, keyAfter, hd, packResponse_ok]

theorem answers_readSubkey_unkeyed :
    answers none (.request (encode (.readSubkey dir rnd)) :: rest) = 0x2000000000000#52 :: answers none rest := by
  simp [answers, answer, keyAfter, decode_encode_readSubkey dir rnd, packResponse_errNotKeyed]

theorem answers_status_keyed :
    answers (some key) (.request (encode .status) :: rest) = 1#52 :: answers (some key) rest := by
  have hd : decode (encode .status) = .command .status := decodeOfEncodeIsTheCommand _ wellFormed_status
  simp [answers, answer, keyAfter, hd, packResponse_ok]

end Answers

/-! ### Reads after loads (R79, R80, R82) -/

/-- R85: one more request after a run from reset is answered as the key held then says. -/
theorem run_reset_snoc (events : List PortEvent) (e : PortEvent) :
    ∃ t rs, run (events ++ [e]) State.reset = .next (t, rs ++ answers (keyAfterAll none events) [e]) := by
  obtain ⟨t, hrun, -⟩ := everyRunAnswersFromItsHistory none (events ++ [e]) State.reset Holds.reset
  exact ⟨t, answers none events, by rw [hrun, answers_append]⟩

/-- Settles O52: no key is held before the first load, and the loaded key is held until a load or a reset comes. -/
theorem readSucceedsOnlyAfterALoad : Obligations.ReadSucceedsOnlyAfterALoad := by
  refine ⟨fun before dir rnd hnone => ?_, fun before between key dir rnd hkeeps => ?_⟩
  · obtain ⟨t, rs, hrun⟩ := run_reset_snoc before (.request (encode (.readSubkey dir rnd)))
    rw [keyAfterAll_none_of_no_load hnone, answers_readSubkey_unkeyed] at hrun
    exact ⟨t, rs, hrun⟩
  · obtain ⟨t, rs, hrun⟩ := run_reset_snoc (before ++ .request (encode (.loadKey 8 key)) :: between)
      (.request (encode (.readSubkey dir rnd)))
    have hheld : keyAfterAll none (before ++ .request (encode (.loadKey 8 key)) :: between) = some key := by
      rw [keyAfterAll_append, keyAfterAll, List.foldl_cons, keyAfter_loadsKey (loadsKey_encode key)]
      exact keyAfterAll_keepsKey hkeeps (some key)
    rw [hheld, answers_readSubkey_keyed, List.append_assoc, List.cons_append] at hrun
    exact ⟨t, rs, hrun⟩

/-- R61, R82: whatever the block held, a LOAD_KEY of length 8 is answered OK and what follows it from its key. -/
theorem run_after_load (key : Key) (rest : List PortEvent) (s : State) :
    ∃ t, run (.request (encode (.loadKey 8 key)) :: rest) s = .next (t, 0#52 :: answers (some key) rest) := by
  have hload : handleEvent (.request (encode (.loadKey 8 key))) s = .next (respond .ok 0#48 (loadSchedule key s)) :=
    (serve_command (decode_encode_loadKey (by decide) key) s).trans (execLoadKey_accepted key s)
  obtain ⟨t, hrest, -⟩ := everyRunAnswersFromItsHistory (some key) rest _ (KeyedWith.of_loadSchedule key _ _ s)
  exact ⟨t, run_cons_of_next hload hrest⟩

/-- Settles O53: after the first load every answer follows from the key held, which the second load, the reset or the
failed load replaces. -/
theorem eachReadUsesTheCurrentKey : Obligations.EachReadUsesTheCurrentKey := by
  intro s a b d e i j
  refine ⟨?_, ?_, fun klen h hk => ?_⟩
  · obtain ⟨t, hrun⟩ := run_after_load a [.request (encode (.readSubkey d i)), .request (encode (.loadKey 8 b)),
      .request (encode (.readSubkey e j))] s
    rw [answers_readSubkey_keyed, answers_loadKey, answers_readSubkey_keyed] at hrun
    exact ⟨t, hrun⟩
  · obtain ⟨t, hrun⟩ := run_after_load a [.request (encode (.readSubkey d i)), .reset,
      .request (encode (.readSubkey e j))] s
    rw [answers_readSubkey_keyed, answers_reset, answers_readSubkey_unkeyed] at hrun
    exact ⟨t, hrun⟩
  · obtain ⟨t, hrun⟩ := run_after_load a [.request (encode (.readSubkey d i)), .request (encode (.loadKey klen b)),
      .request (encode (.readSubkey e j))] s
    rw [answers_readSubkey_keyed, answers_loadKey_rejected _ _ _ h hk, answers_readSubkey_unkeyed] at hrun
    exact ⟨t, hrun⟩

/-- Settles O54: the command after the load is answered from the loaded key. -/
theorem loadThenUseNeedsNoWait : Obligations.LoadThenUseNeedsNoWait := by
  intro s key dir rnd
  refine ⟨?_, ?_⟩
  · obtain ⟨t, hrun⟩ := run_after_load key [.request (encode (.readSubkey dir rnd))] s
    rw [answers_readSubkey_keyed] at hrun
    exact ⟨t, hrun⟩
  · obtain ⟨t, hrun⟩ := run_after_load key [.request (encode .status)] s
    rw [answers_status_keyed] at hrun
    exact ⟨t, hrun⟩

end Sys2Proof.Machine
